-- ==== Sys2Proof/Word.lean ====
section
/-! DEFINITION. The word types of the Mladpex 960 and their plainest arithmetic (spec 00 R5, 05 R86). -/

namespace Sys2Proof

/-- One byte of memory (R5). -/
abbrev Byte := BitVec 8

/-- A 32-bit word. -/
abbrev Word32 := BitVec 32

/-- A 64-bit register or instruction word (R41, R45, R86). -/
abbrev Word := BitVec 64

/-- One bit per lane of a team, lane L at bit L (R27, R43). -/
abbrev LaneBits := BitVec 1024

end Sys2Proof
end

