-- ==== Sys2Proof/Syntax.lean ====
section
/-! DEFINITION. The instructions of Ivbeant 1.0 and the events of the device: one constructor for each row of
spec/opcode_table.json. An instruction carries its head (stall, wait, signal, guard) and the fields of its format
(05 R86, R93); an event carries what comes from outside at that moment. -/

namespace Sys2Proof

/-- The fields that every word has (R86, R94): STALL 63:60, WAIT 59:48, SIG 47:44 and the guard 34:31. -/
structure Head where
  stall : BitVec 4
  wait : BitVec 12
  sig : BitVec 4
  guard : BitVec 4
deriving DecidableEq, Repr

/-- Format A (R93, R96): d, a, b, c and the mod bits BS, X, TYPE. -/
structure FmtA where
  d : BitVec 6
  a : BitVec 6
  b : BitVec 6
  c : BitVec 6
  bs : Bool
  x : Bool
  ty : BitVec 5
deriving DecidableEq, Repr

/-- Format I (R93, R101): d, a and imm19. -/
structure FmtI where
  d : BitVec 6
  a : BitVec 6
  imm : BitVec 19
deriving DecidableEq, Repr

/-- Format L (R93): d and imm25. -/
structure FmtL where
  d : BitVec 6
  imm : BitVec 25
deriving DecidableEq, Repr

/-- Format B (R93, R99): target 30:15 and join 14:0, in instruction words. -/
structure FmtB where
  target : BitVec 16
  join : BitVec 15
deriving DecidableEq, Repr

/-- Format M (R93, R97): d, a, b and the mod fields TYPE, SCOPE, ORDER, HINT, SPACE. -/
structure FmtM where
  d : BitVec 6
  a : BitVec 6
  b : BitVec 6
  ty : BitVec 5
  scope : BitVec 3
  order : BitVec 2
  hint : BitVec 2
  space : Bool
deriving DecidableEq, Repr

/-- Format S (R93): imm32, and no guard. -/
structure FmtS where
  imm : BitVec 32
deriving DecidableEq, Repr

/-- Format W (R93, R100): status destination, object, timeout exponent and count. -/
structure FmtW where
  d : BitVec 6
  obj : BitVec 5
  t : BitVec 4
  count : BitVec 16
deriving DecidableEq, Repr

/-- What the command of another member of a collective holds (12 R295, 18 R416): the device, op, type code, element count,
head width D, digest of its context entry, whether it was abandoned, and its source elements. -/
structure CollPeer where
  dev : Nat
  op : Nat
  ty : Nat
  count : Nat
  d : Nat
  digest : BitVec 64
  abandoned : Bool
  data : List (BitVec 64)
deriving DecidableEq, Repr

/-- What a request of another device asks for (18 R414, R415). -/
inductive RemoteKind where
  | read
  | write
  | atom
deriving DecidableEq, Repr

/-- A request of another device: source, issuing tenant and class, kind, physical address, length in bytes, bytes to
write, for an atomic its operation, type code and two operands, the TIER of the page table entry that sent it (15 R338), and, of a request
on its way to another device, that device (18 R414). -/
structure RemoteReq where
  src : Nat
  tenant : Nat
  cls : Nat
  kind : RemoteKind
  pa : Nat
  len : Nat
  data : List Byte
  op : Nat
  ty : Nat
  x : BitVec 64
  y : BitVec 64
  tier : Nat := 0
  dest : Option Nat := none
deriving DecidableEq, Repr

/-- Where an error is detected: a counted structure of a core (16 R376 codes 0 to 14) with the item of it
(`u` and `v` name register and lane, tile and element, team slot, or line, as the structure needs), a granule of memory, or the granule
of an address in the memory-side cache slice that holds it. -/
inductive ErrorSite where
  | core (core strct u v : Nat)
  | mem (pa : Nat)
  | slice (pa : Nat)
deriving DecidableEq, Repr

/-- One constructor for each row of spec/opcode_table.json. -/
inductive Instr where
  /-- NOP (R111), opcode 0x001, format A. Issues and has no effect beyond the issue bookkeeping. -/
  | nop (h : Head) (o : FmtA)
  /-- BRA (R114), opcode 0x002, format B. Per-lane conditional branch; a divergent outcome pushes the waiting path on the reconvergence stack. -/
  | bra (h : Head) (o : FmtB)
  /-- BRS (R113), opcode 0x003, format B. Branches the whole path when the guard holds in at least one active lane. -/
  | brs (h : Head) (o : FmtB)
  /-- BRC (R113), opcode 0x004, format B. Branches the whole path when the guard holds in every active lane. -/
  | brc (h : Head) (o : FmtB)
  /-- JMPI (R117), opcode 0x005, format A. Per-lane indirect jump to vector targets; checks LAND targets and splits the path by target. -/
  | jmpi (h : Head) (o : FmtA)
  /-- JMPI_U (R117), opcode 0x005, format A. Indirect jump of the whole path to a scalar target that must hold LAND. -/
  | jmpiU (h : Head) (o : FmtA)
  /-- LAND (R118), opcode 0x006, format S. Marks a legal indirect target and sets SIG to its immediate. -/
  | land (h : Head) (o : FmtS)
  /-- CALL (R119), opcode 0x007, format L. Writes the link and branches to a PC-relative target. -/
  | call (h : Head) (o : FmtL)
  /-- CALLI (R119), opcode 0x008, format A. Writes the link and branches to a checked scalar target. -/
  | calli (h : Head) (o : FmtA)
  /-- RET (R119), opcode 0x009, format A. Sets the PC from a scalar register. -/
  | ret (h : Head) (o : FmtA)
  /-- LOOP (R120), opcode 0x00A, format I. Opens a hardware loop with a count from a scalar register. -/
  | loop (h : Head) (o : FmtI)
  /-- LOOPX (R120), opcode 0x00B, format I. Opens a hardware loop with an immediate count. -/
  | loopx (h : Head) (o : FmtI)
  /-- YIELD (R123), opcode 0x00C, format L. Clears YCNT and parks the team for a requested pre-emption. -/
  | yield (h : Head) (o : FmtL)
  /-- EXIT (R122), opcode 0x00D, format A. Removes guarded active lanes; the team becomes DONE when the last lanes leave. -/
  | exit (h : Head) (o : FmtA)
  /-- TRAP (R124), opcode 0x00E, format L. Writes a trap record and holds the team WAITING until resolved. -/
  | trap (h : Head) (o : FmtL)
  /-- ERET (R125), opcode 0x00F, format A. Resolves a pending fault-queue record with an action. -/
  | eret (h : Head) (o : FmtA)
  /-- HALT (R124), opcode 0x010, format A. Writes a halt record and halts the team. -/
  | halt (h : Head) (o : FmtA)
  /-- BRK (R124), opcode 0x011, format L. Writes a breakpoint report and holds the team WAITING until resolved. -/
  | brk (h : Head) (o : FmtL)
  /-- SIGCK (R128), opcode 0x012, format S. Compares SIG with an immediate and raises the signature fault on a mismatch. -/
  | sigck (h : Head) (o : FmtS)
  /-- RGNE (R129), opcode 0x013, format L. Pushes a region identifier on the region stack. -/
  | rgne (h : Head) (o : FmtL)
  /-- RGNL (R129), opcode 0x014, format A. Pops the region stack. -/
  | rgnl (h : Head) (o : FmtA)
  /-- MARK (R129), opcode 0x015, format S. Writes a trace record when block tracing is enabled. -/
  | mark (h : Head) (o : FmtS)
  /-- WAITF (R130), opcode 0x016, format W. Holds the team until a flag's COUNT is at or below a count. -/
  | waitf (h : Head) (o : FmtW)
  /-- VOTE (R131), opcode 0x017, format A. Reduces a predicate over the voting lanes into a scalar or predicate. -/
  | vote (h : Head) (o : FmtA)
  /-- ELECT (R132), opcode 0x018, format A. Selects the lowest active guarded lane. -/
  | elect (h : Head) (o : FmtA)
  /-- WIDR (R133), opcode 0x019, format A. Writes the work identifier or one of its fields into each lane. -/
  | widr (h : Head) (o : FmtA)
  /-- MASKR (R133), opcode 0x01A, format A. Writes the active mask or RPM words into each lane. -/
  | maskr (h : Head) (o : FmtA)
  /-- SRD (R134), opcode 0x01B, format I. Reads a system register into a scalar register. -/
  | srd (h : Head) (o : FmtI)
  /-- SWR (R134), opcode 0x01C, format I. Writes a scalar register into a system register. -/
  | swr (h : Head) (o : FmtI)
  /-- SADD (R140), opcode 0x040, format A. Scalar add, wrapping or saturating. -/
  | sadd (h : Head) (o : FmtA)
  /-- SSUB (R140), opcode 0x041, format A. Scalar subtract, wrapping or saturating. -/
  | ssub (h : Head) (o : FmtA)
  /-- SADDI (R139), opcode 0x042, format I. Scalar add of a sign-extended immediate. -/
  | saddi (h : Head) (o : FmtI)
  /-- SMUL (R140), opcode 0x043, format A. Low 64 bits of a scalar product, wrapping or saturating. -/
  | smul (h : Head) (o : FmtA)
  /-- SMULH (R139), opcode 0x044, format A. High 64 bits of a scalar product. -/
  | smulh (h : Head) (o : FmtA)
  /-- SDIV (R140), opcode 0x045, format A. Scalar quotient with defined results for zero and overflow. -/
  | sdiv (h : Head) (o : FmtA)
  /-- SREM (R140), opcode 0x046, format A. Scalar remainder with defined results for zero and overflow. -/
  | srem (h : Head) (o : FmtA)
  /-- SAND (R139), opcode 0x047, format A. Scalar bitwise AND. -/
  | sand (h : Head) (o : FmtA)
  /-- SOR (R139), opcode 0x048, format A. Scalar bitwise OR. -/
  | sor (h : Head) (o : FmtA)
  /-- SXOR (R139), opcode 0x049, format A. Scalar bitwise exclusive OR. -/
  | sxor (h : Head) (o : FmtA)
  /-- SANDI (R139), opcode 0x04A, format I. Scalar AND with a sign-extended immediate. -/
  | sandi (h : Head) (o : FmtI)
  /-- SORI (R139), opcode 0x04B, format I. Scalar OR with a sign-extended immediate. -/
  | sori (h : Head) (o : FmtI)
  /-- SSHL (R139), opcode 0x04C, format A. Scalar left shift. -/
  | sshl (h : Head) (o : FmtA)
  /-- SSHR (R139), opcode 0x04D, format A. Scalar logical right shift. -/
  | sshr (h : Head) (o : FmtA)
  /-- SSAR (R139), opcode 0x04E, format A. Scalar arithmetic right shift. -/
  | ssar (h : Head) (o : FmtA)
  /-- SMIN (R139), opcode 0x04F, format A. Scalar minimum. -/
  | smin (h : Head) (o : FmtA)
  /-- SMAX (R139), opcode 0x050, format A. Scalar maximum. -/
  | smax (h : Head) (o : FmtA)
  /-- SCMP (R141), opcode 0x051, format A. Scalar compare into a scalar or into a predicate of each guarded lane. -/
  | scmp (h : Head) (o : FmtA)
  /-- SSEL (R139), opcode 0x052, format A. Scalar select on a nonzero condition. -/
  | ssel (h : Head) (o : FmtA)
  /-- SMOV (R139), opcode 0x053, format A. Scalar move. -/
  | smov (h : Head) (o : FmtA)
  /-- SLI (R139), opcode 0x054, format L. Loads a sign-extended 25-bit immediate. -/
  | sli (h : Head) (o : FmtL)
  /-- SLIH (R139), opcode 0x055, format L. Shifts the destination left by 24 and inserts 24 immediate bits. -/
  | slih (h : Head) (o : FmtL)
  /-- SCLZ (R139), opcode 0x056, format A. Counts leading zeros of a scalar. -/
  | sclz (h : Head) (o : FmtA)
  /-- SPOP (R139), opcode 0x057, format A. Counts set bits of a scalar. -/
  | spop (h : Head) (o : FmtA)
  /-- SBFX (R139), opcode 0x058, format A. Extracts a scalar bit field. -/
  | sbfx (h : Head) (o : FmtA)
  /-- SBFI (R139), opcode 0x059, format A. Inserts a scalar bit field. -/
  | sbfi (h : Head) (o : FmtA)
  /-- SLEA (R139), opcode 0x05A, format A. Adds a shifted scalar to another. -/
  | slea (h : Head) (o : FmtA)
  /-- SV2S (R142), opcode 0x05B, format A. Reads one element of any lane into a scalar register. -/
  | sv2s (h : Head) (o : FmtA)
  /-- VADD (R144), opcode 0x080, format A. Vector integer add per sub-element. -/
  | vadd (h : Head) (o : FmtA)
  /-- VSUB (R144), opcode 0x081, format A. Vector integer subtract per sub-element. -/
  | vsub (h : Head) (o : FmtA)
  /-- VADDI (R145), opcode 0x082, format I. Vector integer add of an immediate. -/
  | vaddi (h : Head) (o : FmtI)
  /-- VMUL (R144), opcode 0x083, format A. Vector integer multiply, low bits. -/
  | vmul (h : Head) (o : FmtA)
  /-- VMULH (R144), opcode 0x084, format A. Vector integer multiply, high bits. -/
  | vmulh (h : Head) (o : FmtA)
  /-- VMAD (R144), opcode 0x085, format A. Vector integer multiply-add. -/
  | vmad (h : Head) (o : FmtA)
  /-- VDOT2 (R146), opcode 0x086, format A. Saturating 16-bit dot product into INT32. -/
  | vdot2 (h : Head) (o : FmtA)
  /-- VDOT4 (R146), opcode 0x087, format A. Saturating 8-bit dot product into INT32. -/
  | vdot4 (h : Head) (o : FmtA)
  /-- VABS (R145), opcode 0x088, format A. Vector absolute value. -/
  | vabs (h : Head) (o : FmtA)
  /-- VNEG (R145), opcode 0x089, format A. Vector negation. -/
  | vneg (h : Head) (o : FmtA)
  /-- VMIN (R144), opcode 0x08A, format A. Vector integer minimum. -/
  | vmin (h : Head) (o : FmtA)
  /-- VMAX (R144), opcode 0x08B, format A. Vector integer maximum. -/
  | vmax (h : Head) (o : FmtA)
  /-- VAND (R144), opcode 0x08C, format A. Vector bitwise AND. -/
  | vand (h : Head) (o : FmtA)
  /-- VOR (R144), opcode 0x08D, format A. Vector bitwise OR. -/
  | vor (h : Head) (o : FmtA)
  /-- VXOR (R144), opcode 0x08E, format A. Vector bitwise exclusive OR. -/
  | vxor (h : Head) (o : FmtA)
  /-- VNOT (R144), opcode 0x08F, format A. Vector bitwise complement. -/
  | vnot (h : Head) (o : FmtA)
  /-- VSHL (R147), opcode 0x090, format A. Vector left shift. -/
  | vshl (h : Head) (o : FmtA)
  /-- VSHR (R147), opcode 0x091, format A. Vector logical right shift. -/
  | vshr (h : Head) (o : FmtA)
  /-- VSAR (R147), opcode 0x092, format A. Vector arithmetic right shift. -/
  | vsar (h : Head) (o : FmtA)
  /-- VRSHR (R147), opcode 0x093, format A. Vector rounding right shift. -/
  | vrshr (h : Head) (o : FmtA)
  /-- VSAT (R148), opcode 0x094, format A. Clamps each sub-element to n bits. -/
  | vsat (h : Head) (o : FmtA)
  /-- VCLZ (R144), opcode 0x095, format A. Vector count of leading zeros. -/
  | vclz (h : Head) (o : FmtA)
  /-- VPOP (R144), opcode 0x096, format A. Vector count of set bits. -/
  | vpop (h : Head) (o : FmtA)
  /-- VCMP (R149), opcode 0x097, format A. Compares one sub-element into a predicate. -/
  | vcmp (h : Head) (o : FmtA)
  /-- VSEL (R144), opcode 0x098, format A. Selects a whole register by a predicate. -/
  | vsel (h : Head) (o : FmtA)
  /-- VMOV (R144), opcode 0x099, format A. Moves a whole vector register. -/
  | vmov (h : Head) (o : FmtA)
  /-- VBCST (R144), opcode 0x09A, format A. Broadcasts a scalar into every sub-element. -/
  | vbcst (h : Head) (o : FmtA)
  /-- VLI (R150), opcode 0x09B, format L. Writes a sign-extended immediate into every sub-element. -/
  | vli (h : Head) (o : FmtL)
  /-- VPACK (R151), opcode 0x09C, format A. Narrows two sources into one register. -/
  | vpack (h : Head) (o : FmtA)
  /-- VUNPK (R151), opcode 0x09D, format A. Widens half of a source register. -/
  | vunpk (h : Head) (o : FmtA)
  /-- VIOTA (R144), opcode 0x09E, format A. Writes each element's index. -/
  | viota (h : Head) (o : FmtA)
  /-- FADD (R152), opcode 0x100, format A. Floating-point add. -/
  | fadd (h : Head) (o : FmtA)
  /-- FSUB (R152), opcode 0x101, format A. Floating-point subtract. -/
  | fsub (h : Head) (o : FmtA)
  /-- FMUL (R152), opcode 0x102, format A. Floating-point multiply. -/
  | fmul (h : Head) (o : FmtA)
  /-- FFMA (R152), opcode 0x103, format A. Fused floating-point multiply-add. -/
  | ffma (h : Head) (o : FmtA)
  /-- FMIN (R154), opcode 0x104, format A. Floating-point minimum. -/
  | fmin (h : Head) (o : FmtA)
  /-- FMAX (R154), opcode 0x105, format A. Floating-point maximum. -/
  | fmax (h : Head) (o : FmtA)
  /-- FCMP (R155), opcode 0x106, format A. Floating-point compare into a predicate. -/
  | fcmp (h : Head) (o : FmtA)
  /-- FCVT (R156), opcode 0x107, format A. Converts between element types, optionally scaled. -/
  | fcvt (h : Head) (o : FmtA)
  /-- FRCP (R153), opcode 0x108, format A. Correctly rounded reciprocal. -/
  | frcp (h : Head) (o : FmtA)
  /-- FRSQ (R153), opcode 0x109, format A. Correctly rounded reciprocal square root. -/
  | frsq (h : Head) (o : FmtA)
  /-- FEXP2 (R153), opcode 0x10A, format A. Correctly rounded power of two. -/
  | fexp2 (h : Head) (o : FmtA)
  /-- FLOG2 (R153), opcode 0x10B, format A. Correctly rounded base-2 logarithm. -/
  | flog2 (h : Head) (o : FmtA)
  /-- FCLASS (R158), opcode 0x10C, format A. Writes a one-hot class mask. -/
  | fclass (h : Head) (o : FmtA)
  /-- FSCL (R159), opcode 0x10D, format A. Scales by a power of two, setting SCO and SCU. -/
  | fscl (h : Head) (o : FmtA)
  /-- XLANE (R161), opcode 0x140, format A. Gathers elements across lanes by index. -/
  | xlane (h : Head) (o : FmtA)
  /-- SLIDE (R162), opcode 0x141, format A. Moves elements by a signed amount with a fill mode. -/
  | slide (h : Head) (o : FmtA)
  /-- PERM (R163), opcode 0x142, format A. Permutes elements within 64-element windows by a pattern entry. -/
  | perm (h : Head) (o : FmtA)
  /-- PTLD (R164), opcode 0x143, format A. Loads a permute pattern entry from lanes 0 to 7. -/
  | ptld (h : Head) (o : FmtA)
  /-- VRED (R165), opcode 0x144, format A. Reduces the elements of the active lanes and broadcasts the result. -/
  | vred (h : Head) (o : FmtA)
  /-- VSCAN (R165), opcode 0x145, format A. Inclusive or exclusive scan over the active lanes. -/
  | vscan (h : Head) (o : FmtA)
  /-- TOPK (R166), opcode 0x146, format A. Writes the k highest-ranked values. -/
  | topk (h : Head) (o : FmtA)
  /-- TOPKX (R166), opcode 0x147, format A. Writes the indices of the k highest-ranked values. -/
  | topkx (h : Head) (o : FmtA)
  /-- PAND (R167), opcode 0x148, format A. Predicate AND. -/
  | pand (h : Head) (o : FmtA)
  /-- POR (R167), opcode 0x149, format A. Predicate OR. -/
  | por (h : Head) (o : FmtA)
  /-- PXOR (R167), opcode 0x14A, format A. Predicate exclusive OR. -/
  | pxor (h : Head) (o : FmtA)
  /-- PNOT (R167), opcode 0x14B, format A. Predicate NOT. -/
  | pnot (h : Head) (o : FmtA)
  /-- LDTLD (R183), opcode 0x160, format M. Loads a level descriptor into a level descriptor table entry. -/
  | ldtld (h : Head) (o : FmtM)
  /-- CINIT (R185), opcode 0x161, format A. Positions a cursor at the first element of a fibre. -/
  | cinit (h : Head) (o : FmtA)
  /-- CINIT_A (R194), opcode 0x161, format A. Makes an append cursor for a fibre. -/
  | cinitA (h : Head) (o : FmtA)
  /-- CDESC (R185), opcode 0x162, format A. Descends from a parent cursor into a child fibre. -/
  | cdesc (h : Head) (o : FmtA)
  /-- CNEXT (R186), opcode 0x163, format A. Steps a cursor to the next element of its fibre. -/
  | cnext (h : Head) (o : FmtA)
  /-- CSEEK (R187), opcode 0x164, format A. Seeks a cursor towards a target coordinate. -/
  | cseek (h : Head) (o : FmtA)
  /-- CCOIT (R188), opcode 0x165, format A. Co-iterates two cursors in intersection or union mode. -/
  | ccoit (h : Head) (o : FmtA)
  /-- CCRD (R189), opcode 0x166, format A. Reads a cursor's coordinate. -/
  | ccrd (h : Head) (o : FmtA)
  /-- CPOS (R189), opcode 0x167, format A. Reads a cursor's position and bound. -/
  | cpos (h : Head) (o : FmtA)
  /-- CVLD (R190), opcode 0x168, format M. Loads the value at a cursor's position. -/
  | cvld (h : Head) (o : FmtM)
  /-- CVST (R190), opcode 0x169, format M. Stores the value at a cursor's position. -/
  | cvst (h : Head) (o : FmtM)
  /-- CAPP (R195), opcode 0x16A, format M. Appends an entry through an append cursor, claiming chunks as needed. -/
  | capp (h : Head) (o : FmtM)
  /-- CCLOSE (R198), opcode 0x16B, format A. Ends a cursor and closes an append fibre. -/
  | cclose (h : Head) (o : FmtA)
  /-- CHEAP (R184), opcode 0x16C, format A. Binds a heap of the issuing die to a table entry. -/
  | cheap (h : Head) (o : FmtA)
  /-- CMOV (R189), opcode 0x16D, format A. Copies a cursor, transferring append ownership. -/
  | cmov (h : Head) (o : FmtA)
  /-- CTEST (R189), opcode 0x16E, format A. Tests a cursor condition into a predicate. -/
  | ctest (h : Head) (o : FmtA)
  /-- CPREF (R191), opcode 0x16F, format M. Requests metadata and values ahead of a cursor. -/
  | cpref (h : Head) (o : FmtM)
  /-- LD (R276), opcode 0x180, format M. Loads an element per lane. -/
  | ld (h : Head) (o : FmtM)
  /-- ST (R276), opcode 0x181, format M. Stores an element per lane. -/
  | st (h : Head) (o : FmtM)
  /-- LDA (R276), opcode 0x182, format M. Acquire load per lane at a scope. -/
  | lda (h : Head) (o : FmtM)
  /-- STL (R276), opcode 0x183, format M. Release store per lane at a scope. -/
  | stl (h : Head) (o : FmtM)
  /-- LDT (R278), opcode 0x184, format M. Loads scaled elements by matrix coordinates. -/
  | ldt (h : Head) (o : FmtM)
  /-- LDTT (R278), opcode 0x185, format M. Loads scaled elements by transposed coordinates. -/
  | ldtt (h : Head) (o : FmtM)
  /-- STT (R279), opcode 0x186, format M. Quantises 256 elements and writes one whole scaled tile. -/
  | stt (h : Head) (o : FmtM)
  /-- ATOM (R280), opcode 0x187, format M. Indivisible read-modify-write per lane at the place of the access. -/
  | atom (h : Head) (o : FmtM)
  /-- FENCE (R282), opcode 0x188, format M. Team-wide acquire and release fence at a scope. -/
  | fence (h : Head) (o : FmtM)
  /-- CINV (R283), opcode 0x189, format M. Invalidates L1 data or instruction cache lines of a range or all. -/
  | cinv (h : Head) (o : FmtM)
  /-- PREF (R284), opcode 0x18A, format M. Requests lines into the L1 or the memory-side cache. -/
  | pref (h : Head) (o : FmtM)
  /-- CPY (R287), opcode 0x18B, format A. Hands a stream copy to the copy engine. -/
  | cpy (h : Head) (o : FmtA)
  /-- CPYT (R288), opcode 0x18C, format A. Hands a tensor-view copy to the copy engine. -/
  | cpyt (h : Head) (o : FmtA)
  /-- CPYG (R289), opcode 0x18D, format A. Hands a row gather to the copy engine. -/
  | cpyg (h : Head) (o : FmtA)
  /-- COLL (R293), opcode 0x18E, format A. Hands a collective operation to a collective engine. -/
  | coll (h : Head) (o : FmtA)
  /-- WBLD (R212), opcode 0x1A0, format A. Starts a checked load of a weight-buffer slot. -/
  | wbld (h : Head) (o : FmtA)
  /-- WBINV (R213), opcode 0x1A1, format A. Invalidates a weight-buffer slot. -/
  | wbinv (h : Head) (o : FmtA)
  /-- AZERO (R216), opcode 0x1A2, format A. Zeroes an accumulator tile's image and partial. -/
  | azero (h : Head) (o : FmtA)
  /-- MMA (R215), opcode 0x1A3, format A. Multiplies scratchpad A by a slot's B into a tile's partial. -/
  | mma (h : Head) (o : FmtA)
  /-- MMAS (R215), opcode 0x1A4, format A. Zeroes the tile and then multiplies as MMA. -/
  | mmas (h : Head) (o : FmtA)
  /-- APROM (R216), opcode 0x1A5, format I. Promotes a tile and sets its promotion interval. -/
  | aprom (h : Head) (o : FmtI)
  /-- ADRN (R221), opcode 0x1A6, format A. Reads a drain descriptor and queues a tile drain. -/
  | adrn (h : Head) (o : FmtA)
  /-- ARD (R228), opcode 0x1A7, format A. Reads a window of a promoted tile into lanes. -/
  | ard (h : Head) (o : FmtA)
  /-- AWR (R228), opcode 0x1A8, format A. Writes lane pairs into a tile's image. -/
  | awr (h : Head) (o : FmtA)
  /-- BARV (R358), opcode 0x1B0, format W. Arrives at a named barrier without waiting. -/
  | barv (h : Head) (o : FmtW)
  /-- BWAIT (R358), opcode 0x1B1, format W. Waits on a named barrier's parity. -/
  | bwait (h : Head) (o : FmtW)
  /-- BSYNC (R358), opcode 0x1B2, format W. Arrives at a named barrier and waits for the phase. -/
  | bsync (h : Head) (o : FmtW)
  /-- BDROP (R358), opcode 0x1B3, format W. Arrives and drops out from later phases. -/
  | bdrop (h : Head) (o : FmtW)
  /-- BEXP (R358), opcode 0x1B4, format W. Adds expected bytes to a named barrier. -/
  | bexp (h : Head) (o : FmtW)
  /-- CBAR (R362), opcode 0x1B5, format W. Arrives at a cluster barrier and waits. -/
  | cbar (h : Head) (o : FmtW)
  /-- GBAR (R362), opcode 0x1B6, format W. Arrives at a grid barrier and waits. -/
  | gbar (h : Head) (o : FmtW)
  /-- DCSET (R366), opcode 0x1B7, format I. Sets a dependency counter and clears its ERR. -/
  | dcset (h : Head) (o : FmtI)
  /-- DCADD (R366), opcode 0x1B8, format I. Adds to a dependency counter and returns the old value. -/
  | dcadd (h : Head) (o : FmtI)
  /-- DCWAIT (R368), opcode 0x1B9, format W. Waits until a dependency counter reads zero. -/
  | dcwait (h : Head) (o : FmtW)
  /-- TIME (R373), opcode 0x1BA, format A. Samples reference time. -/
  | time (h : Head) (o : FmtA)
  /-- CYC (R373), opcode 0x1BB, format A. Samples CYC or CYCN of the issuing die. -/
  | cyc (h : Head) (o : FmtA)
  /-- ENQ (R302), opcode 0x1C0, format A. Enqueues a task record from the scratchpad. -/
  | enq (h : Head) (o : FmtA)
  /-- DEQ (R303), opcode 0x1C1, format A. Takes the HEAD record of a pull queue into the scratchpad. -/
  | deq (h : Head) (o : FmtA)
  /-- DEQ_HDR (R303), opcode 0x1C1, format A. Reads a word of the group's header latch. -/
  | deqHdr (h : Head) (o : FmtA)
  /-- DEQ_ARG (R303), opcode 0x1C1, format A. Reads the task's ARG field. -/
  | deqArg (h : Head) (o : FmtA)
  /-- QCW_RD (R311), opcode 0x1C2, format A. Reads an access queue's control word. -/
  | qcwRd (h : Head) (o : FmtA)
  /-- QCW_RST (R311), opcode 0x1C2, format A. Resets an access queue. -/
  | qcwRst (h : Head) (o : FmtA)
  /-- QPUSH (R309), opcode 0x1C3, format A. Gatherer pushes one element into an access queue. -/
  | qpush (h : Head) (o : FmtA)
  /-- QPOP (R310), opcode 0x1C4, format A. Pops elements into the served lanes. -/
  | qpop (h : Head) (o : FmtA)
  /-- QPEEK (R310), opcode 0x1C5, format A. Reads elements into the served lanes without popping. -/
  | qpeek (h : Head) (o : FmtA)
  /-- DEBUG_STOP (R124). The debug stop requested of the team in `slot` of `core` lands before its next RGNE, RGNL or YIELD. -/
  | debugStop (core slot : Nat)
  /-- INSTRUCTION_COMPLETION (R89). The incomplete instruction numbered `op` of a team performs its last effect. -/
  | instructionCompletion (core slot op : Nat)
  /-- FAULT_RAISE (R381). The fault met in the fault window of the team's instruction is raised. -/
  | faultRaise (core slot : Nat)
  /-- DEFERRED_RECORD_WRITE (R313). The oldest record that waits at the die is written when the ring has room. -/
  | deferredRecordWrite (die : Nat)
  /-- WAIT_TIMEOUT (R100). The wait of a team ends when its timeout has elapsed. -/
  | waitTimeout (core slot : Nat)
  /-- CLASS_PROMOTION (R33). A team READY for 4,096 cycles without issuing is promoted. -/
  | classPromotion (core slot : Nat)
  /-- HOST_ENQUEUE (R300). A write of `data` at offset `off` of the port of queue `q`, by function `fn` (0 the PF, 1 + k VF k). -/
  | hostEnqueue (fn q off : Nat) (data : List Byte)
  /-- DISPATCH_STEP (R304). One step of the die's dispatcher. -/
  | dispatchStep (die : Nat)
  /-- START_TIME_REACHED (R305). The task with this tag may issue from now on. -/
  | startTimeReached (q take : Nat)
  /-- TASK_COMPLETION (R305). The task with this tag completes. -/
  | taskCompletion (q take : Nat)
  /-- STEAL (R306). The idle die takes half of another die's undispatched range. -/
  | steal (die : Nat)
  /-- COPY_BLOCK (R290). The next block of copy `id` of the core's copy engine. -/
  | copyBlock (core id : Nat)
  /-- COLL_MATCH (R295). The commands of the other members arrive and are compared with command `id`. -/
  | collMatch (core id : Nat) (peers : List CollPeer)
  /-- COLL_COMPLETION (R294). The result of the matched collective `id` lands on this member. -/
  | collCompletion (core id : Nat) (peers : List CollPeer)
  /-- FIFO_HEAD_LEAVE (R203). The entry at the head of the crossing FIFO leaves it. -/
  | fifoHeadLeave (core : Nat)
  /-- MMA_CHUNK (R215). The array performs the next chunk of its command. -/
  | mmaChunk (core : Nat)
  /-- DRAIN_EXECUTE (R222). The array performs the drain it holds. -/
  | drainExecute (core : Nat)
  /-- WBLD_COMPLETION (R211). The load of weight-buffer slot `slotk` finishes its checked fetches. -/
  | wbldCompletion (core slotk : Nat)
  /-- GROUP_SAVE (R392). The group whose lowest team slot is `grp` is saved. -/
  | groupSave (core grp : Nat)
  /-- KILL (R387). A write of the KILL command word. -/
  | kill (die : Nat) (word : BitVec 128)
  /-- PREEMPT (R391). A write of the PREEMPT command word. -/
  | preempt (die : Nat) (word : BitVec 256)
  /-- RESUME (R394). A write of the RESUME command word. -/
  | resume (die : Nat) (word : BitVec 128)
  /-- RESOLVE (R384). A write of the RESOLVE command word. -/
  | resolve (die : Nat) (word : Word)
  /-- INVALIDATE_ALL (R342). A write of the invalidation word with SCOPE 0. -/
  | invalidateAll (die : Nat) (word : BitVec 128)
  /-- INVALIDATE_TENANT (R342). A write of the invalidation word with SCOPE 1. -/
  | invalidateTenant (die : Nat) (word : BitVec 128)
  /-- INVALIDATE_PAGES (R342). A write of the invalidation word with SCOPE 2. -/
  | invalidatePages (die : Nat) (word : BitVec 128)
  /-- TASK_QUEUE_STATE_WRITE (R297). A host write of the state word of queue `q`. -/
  | taskQueueStateWrite (q : Nat) (word : BitVec 128)
  /-- CONTEXT_ENTRY_WRITE (R416). A host write of collective context `k`. -/
  | contextEntryWrite (k : Nat) (word : BitVec 256)
  /-- GRID_MAP_WRITE (R402). A host write of grid-barrier map `k`. -/
  | gridMapWrite (k : Nat) (word : BitVec 512)
  /-- IMPORT_WINDOW_WRITE (R402). A host write of import window `k`. -/
  | importWindowWrite (k : Nat) (word : BitVec 512)
  /-- VF_BINDING_WRITE (R403). A host write of the binding entry of VF `k`. -/
  | vfBindingWrite (k : Nat) (word : Word)
  /-- HOST_REGISTER_WRITE (R399). A host write of `data` at offset `off` of PF BAR 0. -/
  | hostRegisterWrite (off : Nat) (data : List Byte)
  /-- SPINTH_WRITE (R61). A write of `v` to SPINTH of the core. -/
  | spinthWrite (core : Nat) (v : Word)
  /-- AELOG_WRITE (R62). A write of `v` to AELOG of the core. -/
  | aelogWrite (core : Nat) (v : Word)
  /-- BKCTL_WRITE (R349). A write of `v` to BKCTL of comparator `k`. -/
  | bkctlWrite (core k : Nat) (v : Word)
  /-- SSCTL_WRITE (R375). A write of `v` to SSCTL of the core. -/
  | ssctlWrite (core : Nat) (v : Word)
  /-- SPC_WRITE (R375). A write of `v` to SPC of sample `j`. -/
  | spcWrite (core j : Nat) (v : Word)
  /-- STALL_SAMPLE (R375). The stall sampler takes its next sample. -/
  | stallSample (core : Nat)
  /-- HOST_MEMORY_READ (R404). A host read of `len` bytes at offset `off` of BAR 4 of function `fn`. -/
  | hostMemoryRead (fn off len : Nat)
  /-- HOST_MEMORY_WRITE (R404). A host write at offset `off` of BAR 4 of function `fn`. -/
  | hostMemoryWrite (fn off : Nat) (data : List Byte)
  /-- ATS_INVALIDATION (R405). The host invalidates the page of `va` in the translations held for function `fn`. -/
  | atsInvalidation (fn va : Nat)
  /-- FLIT_RECEIVE (R411). The 256 bytes of a flit arrive at an Omger port. -/
  | flitReceive (port : Nat) (flit : List Byte)
  /-- LINK_RETRAIN (R411). The port starts to retrain. -/
  | linkRetrain (port : Nat)
  /-- LANE_ROTATION (R413). The rotation of the shadow lane of a port, or of Dravim link `port` - 16 (R7); `weak`: the lanes over the
  error rate in the period. -/
  | laneRotation (port : Nat) (weak : List Nat)
  /-- REMOTE_REQUEST (R415). A request of another device of the domain arrives. -/
  | remoteRequest (req : RemoteReq)
  /-- PATH_DOWN (R415). The path to device `dev` has been down for longer than 1 ms. -/
  | pathDown (dev : Nat)
  /-- GRID_ARRIVAL_MESSAGE (R417). An arrival at grid barrier `k` from device `dev` reaches the counting member, with count `n`. -/
  | gridArrivalMessage (k dev n : Nat)
  /-- GRID_COMPLETION_MESSAGE (R417). The completion (or abandonment, status 2) of grid barrier `k` reaches this member. -/
  | gridCompletionMessage (k status : Nat)
  /-- SENSOR_PERIOD (R426). A sensor period: tenths of a degree Celsius per die, and the module's power in W. -/
  | sensorPeriod (temps : List Nat) (power : Nat)
  /-- RELOCK_BEGIN (R13). The decided change of step begins its relock. -/
  | relockBegin (die : Nat)
  /-- RELOCK_END (R13). The relock of the die ends. -/
  | relockEnd (die : Nat)
  /-- PPS_PULSE (R370). An edge of the 1 PPS input. -/
  | ppsPulse
  /-- PTP_LOSS (R370). PTP or the 1 PPS input is lost. -/
  | ptpLoss
  /-- EPOCH (R320). Reference time has crossed a multiple of 2^40 ns. -/
  | epoch
  /-- ERROR_DETECTION (R376). An error is detected at `site`; `unc`: it cannot be corrected. -/
  | errorDetection (site : ErrorSite) (unc : Bool)
  /-- ERROR_WINDOW_EXPIRY (R376). The error window of the core ends. -/
  | errorWindowExpiry (core : Nat)
  /-- UE_EXPIRY (R376). 24 hours have passed since the oldest uncorrectable error of structure `k`. -/
  | ueExpiry (core k : Nat)
  /-- LASTING_FAULT_ACTION (R390). The controller acts on the lasting fault of structure `k`. -/
  | lastingFaultAction (core k : Nat)
  /-- ROW_SPARE_EFFECT (R390). The pending spare of structure `k` takes effect. -/
  | rowSpareEffect (core k : Nat)
  /-- FATAL_CONDITION (R321). A fatal condition: origin die code, origin core or 255, cause 1 to 7, structure code or 255; under cause 2,
  `strct` 2 is the fault-queue control. -/
  | fatalCondition (odie core cause strct : Nat)
  /-- FREEZE_RECEIPT (R322). The die receives FREEZE; `miss`: its cores that cannot write their marker. -/
  | freezeReceipt (die : Nat) (miss : List Nat)
  /-- CAPSULE_ASSEMBLY (R324). The controller assembles a store, with 48 random bytes drawn for it. -/
  | capsuleAssembly (salt : List Byte)
  /-- WARM_RESET (R420). A conventional reset or the mailbox request for one. -/
  | warmReset
  /-- CORE_CYCLE (R31). One core cycle of the die. -/
  | coreCycle (die : Nat)
  /-- LINK_RETRAIN_COMPLETE (R411). The port ends its training with `lanes` data lanes. -/
  | linkRetrainComplete (port lanes : Nat)
  /-- SPDM_GET_VERSION (R408). The SPDM request GET_VERSION. -/
  | spdmGetVersion (req : List Byte)
  /-- SPDM_GET_CAPABILITIES (R408). The SPDM request GET_CAPABILITIES. -/
  | spdmGetCapabilities (req : List Byte)
  /-- SPDM_NEGOTIATE_ALGORITHMS (R408). The SPDM request NEGOTIATE_ALGORITHMS. -/
  | spdmNegotiateAlgorithms (req : List Byte)
  /-- SPDM_GET_DIGESTS (R408). The SPDM request GET_DIGESTS. -/
  | spdmGetDigests (req : List Byte)
  /-- SPDM_GET_CERTIFICATE (R408). The SPDM request GET_CERTIFICATE. -/
  | spdmGetCertificate (req : List Byte)
  /-- SPDM_CHALLENGE (R408). The SPDM request CHALLENGE. -/
  | spdmChallenge (req : List Byte)
  /-- SPDM_GET_MEASUREMENTS (R408). The SPDM request GET_MEASUREMENTS. -/
  | spdmGetMeasurements (req : List Byte)
  /-- PTP_MESSAGE (R370). A PTP message: the PTP time at this moment, in ns. -/
  | ptpMessage (time : Nat)
  /-- POWER_ON_RESET (R420). Power-on; `standby`: standby power was away too (R330). -/
  | powerOnReset (standby : Bool)
  /-- MAILBOX_ID (R430). The mailbox command MAILBOX_ID from function `fn`, with the request payload. -/
  | mailboxId (fn tag : Nat) (req : List Byte)
  /-- FWLOAD (R423). The mailbox command FWLOAD from function `fn`: the first bytes of the request payload, and the bytes of image behind
  them. -/
  | fwload (fn tag : Nat) (req data : List Byte)
  /-- CERT (R424). The mailbox command CERT from function `fn`, with the request payload. -/
  | cert (fn tag : Nat) (req : List Byte)
  /-- STEP (R425). The mailbox command STEP from function `fn`, with the request payload. -/
  | step (fn tag : Nat) (req : List Byte)
  /-- LIMITS_READ (R430). The mailbox command LIMITS_READ from function `fn`, with the request payload. -/
  | limitsRead (fn tag : Nat) (req : List Byte)
  /-- LIMITS_SET (R426). The mailbox command LIMITS_SET from function `fn`, with the request payload. -/
  | limitsSet (fn tag : Nat) (req : List Byte)
  /-- STATE_ACTIVE (R427). The mailbox command STATE_ACTIVE from function `fn`, with the request payload. -/
  | stateActive (fn tag : Nat) (req : List Byte)
  /-- STATE_QUIESCE (R427). The mailbox command STATE_QUIESCE from function `fn`, with the request payload. -/
  | stateQuiesce (fn tag : Nat) (req : List Byte)
  /-- STATE_STANDBY (R427). The mailbox command STATE_STANDBY from function `fn`, with the request payload. -/
  | stateStandby (fn tag : Nat) (req : List Byte)
  /-- STATE_WARM_RESET (R430). The mailbox command STATE_WARM_RESET from function `fn`, with the request payload. -/
  | stateWarmReset (fn tag : Nat) (req : List Byte)
  /-- SVNSET (R423). The mailbox command SVNSET from function `fn`, with the request payload. -/
  | svnset (fn tag : Nat) (req : List Byte)
  /-- MAILBOX_TIME (R430). The mailbox command MAILBOX_TIME from function `fn`, with the request payload. -/
  | mailboxTime (fn tag : Nat) (req : List Byte)
  /-- ERRORS (R430). The mailbox command ERRORS from function `fn`, with the request payload. -/
  | errors (fn tag : Nat) (req : List Byte)
  /-- CLEAR (R430). The mailbox command CLEAR from function `fn`, with the request payload. -/
  | clear (fn tag : Nat) (req : List Byte)
  /-- CAPLIST (R332). The mailbox command CAPLIST from function `fn`, with the request payload. -/
  | caplist (fn tag : Nat) (req : List Byte)
  /-- CAPGET (R332). The mailbox command CAPGET from function `fn`, with the request payload. -/
  | capget (fn tag : Nat) (req : List Byte)
  /-- CAPACK (R333). The mailbox command CAPACK from function `fn`, with the request payload. -/
  | capack (fn tag : Nat) (req : List Byte)
  /-- CAPFREEZE (R332). The mailbox command CAPFREEZE from function `fn`, with the request payload. -/
  | capfreeze (fn tag : Nat) (req : List Byte)
  /-- POWER_LOSS (R330). Loss of power; `standby`: standby power is lost too. -/
  | powerLoss (standby : Bool)
deriving DecidableEq, Repr

end Sys2Proof
end

