-- ==== Sys2Proof/Machine/Forms.lean ====
section
/-! DEFINITION. What the encoding says of each instruction before it acts: opcode, operand fields with their files,
accepted types and modifiers, issue target, latency class and whether it sweeps (02 R11, R28; 05 R90 to R103; the form
tables of chapters 06 to 13 and 16). -/

namespace Sys2Proof.Machine

/-- Which file or value a field names (R95, R98). -/
inductive Use where
  | res
  | s
  | v
  | p
  | c
  | a
  | w
  | any
  | lt (n : Nat)
  | rng (lo hi : Nat)
deriving DecidableEq, Repr

/-- Latency class (R90). -/
inductive Lat where
  | none_
  | fixed (n : Nat)
  | var
deriving DecidableEq, Repr

/-- Issue targets are numbered 0 scalar pipe, 1 vector pipes, 2 memory pipe, 3 cursor port, 4 command port (R11). -/
structure Info where
  opc : Nat
  tgt : Nat
  lat : Lat
  sweep : Bool
  head : Head
  fields : List (Nat × Use)
  ok : Bool
deriving DecidableEq, Repr

/-- Type sets of R63. -/
def tI : List Nat := [0, 1, 2, 3, 4]
def tN : List Nat := [5, 6, 7, 8, 9]
def tB : List Nat := [0xA, 0xB, 0xC, 0xD]
def tF : List Nat := [0xE, 0xF, 0x10]
def tIN : List Nat := tI ++ tN
def tINB : List Nat := tI ++ tN ++ tB
/-- Width-8+ members of I, N and B (R143). -/
def t8 : List Nat := [1, 2, 3, 4, 6, 7, 8, 9, 0xA, 0xB, 0xC, 0xD]
/-- Every type but .f26. -/
def tAny : List Nat := tINB ++ tF ++ [0x11, 0x12, 0x13, 0x14]
/-- The access types (R182, R273). -/
def tAcc : List Nat := t8 ++ tF ++ [0x11, 0x12]
/-- The access types of width 8 to 32 (R182). -/
def tApp : List Nat := [1, 2, 3, 6, 7, 8, 0xA, 0xB, 0xC, 0xE, 0xF, 0x10, 0x11, 0x12]

/-- Width in bits of a type code (R63). -/
def tyWidth (t : Nat) : Nat :=
  match t with
  | 0 | 5 | 0x13 | 0x14 => 4
  | 1 | 6 | 0xA | 0x11 | 0x12 => 8
  | 2 | 7 | 0xB | 0xE | 0xF => 16
  | 3 | 8 | 0xC | 0x10 => 32
  | 0x15 => 26
  | _ => 64

/-- Sub-elements of a type in a register (R41). -/
def tySubs (t : Nat) : Nat := 64 / tyWidth t

/-- Which pairs FCVT accepts (R156): destination `t`, source `u`, `.sat`, scaled form. -/
def fcvtOk (t u : Nat) (sat scaled : Bool) : Bool :=
  let set := [1, 2, 3, 4, 6, 7, 8, 9, 0xE, 0xF, 0x10, 0x11, 0x12, 0x13, 0x14]
  let fp := [0xE, 0xF, 0x10, 0x11, 0x12, 0x13]
  set.contains t && set.contains u && (fp.contains t || fp.contains u)
    && (t != 0x14 || u == 0xE || u == 0xF) && (u != 0x14 || t == 0xE || t == 0xF)
    && (!sat || t == 0x11 || t == 0x12 || t == 0x13) && (!scaled || fp.contains t)

/-- Which types a reduction accepts (R165). -/
def redOk (t op : Nat) : Bool :=
  if op ≤ 2 then !tB.contains t else if op ≤ 5 then !tF.contains t else false

/-- Which operations ATOM accepts on a type (R280). -/
def atomOk (t op : Nat) : Bool :=
  let b := t == 0xC || t == 0xD
  let f := t == 0x10
  if op ≤ 2 then !b else if op ≤ 5 then !f else if op = 6 then true else !f

/-- Format A: fields d, a, b, c, accepted types, whether BS and X are accepted, further conditions. -/
def fA (opc tgt : Nat) (lat : Lat) (sweep : Bool) (h : Head) (o : FmtA) (ud ua ub uc : Use) (tys : List Nat)
    (bsOk xOk ok : Bool) : Info :=
  { opc, tgt, lat, sweep, head := h
    fields := [(o.d.toNat, ud), (o.a.toNat, ua), (o.b.toNat, if o.bs && bsOk then .s else ub), (o.c.toNat, uc)]
    ok := tys.contains o.ty.toNat && (bsOk || !o.bs) && (xOk || !o.x) && ok }

/-- Format I. -/
def fI (opc tgt : Nat) (lat : Lat) (sweep : Bool) (h : Head) (o : FmtI) (ud ua : Use) (ok : Bool) : Info :=
  { opc, tgt, lat, sweep, head := h, fields := [(o.d.toNat, ud), (o.a.toNat, ua)], ok }

/-- Format L. -/
def fL (opc tgt : Nat) (lat : Lat) (sweep : Bool) (h : Head) (o : FmtL) (ud : Use) (ok : Bool) : Info :=
  { opc, tgt, lat, sweep, head := h, fields := [(o.d.toNat, ud)], ok }

/-- Format B. -/
def fB (opc : Nat) (h : Head) (ok : Bool) : Info :=
  { opc, tgt := 0, lat := .none_, sweep := false, head := h, fields := [], ok }

/-- Format M: HINT 3 is never accepted (R97). -/
def fM (opc tgt : Nat) (sweep : Bool) (h : Head) (o : FmtM) (ud ua ub : Use) (tys : List Nat) (ok : Bool) : Info :=
  { opc, tgt, lat := .var, sweep, head := h, fields := [(o.d.toNat, ud), (o.a.toNat, ua), (o.b.toNat, ub)]
    ok := tys.contains o.ty.toNat && o.hint.toNat ≤ 2 && ok }

/-- Format S: no guard (R94). -/
def fS (opc : Nat) (h : Head) : Info :=
  { opc, tgt := 0, lat := .none_, sweep := false, head := h, fields := [], ok := h.guard == 0 }

/-- Format W. -/
def fW (opc tgt : Nat) (h : Head) (o : FmtW) (ud uobj : Use) (ok : Bool) : Info :=
  { opc, tgt, lat := .var, sweep := false, head := h, fields := [(o.d.toNat, ud), (o.obj.toNat, uobj)], ok }

/-- The system registers that any team may read, and those that need privilege (R59). -/
def sysOpen (n : Nat) : Bool := [0x000, 0x001, 0x002, 0x010, 0x011, 0x020, 0x021, 0x022, 0x023, 0x030, 0x031, 0x032].contains n
def sysPriv (n : Nat) : Bool := decide (0x040 ≤ n ∧ n < 0x0C0)

/-- The numbers that SRD and SWR accept (R59). -/
def sysReads (n : Nat) : Bool := sysOpen n || sysPriv n
def sysWrites (n : Nat) : Bool := n == 0x020 || n == 0x030 || n == 0x031 || sysPriv n

/-- The encoding facts of every instruction; an event of the device has none (opcode 0x200, which no word holds). -/
def instrInfo (i : Instr) : Info :=
  match i with
  | .nop h o => fA 0x001 0 .none_ false h o .res .res .res .res [0] false (false) (true)
  | .bra h _ => fB 0x002 h (true)
  | .brs h o => fB 0x003 h (o.join == 0)
  | .brc h o => fB 0x004 h (o.join == 0)
  | .jmpi h o => fA 0x005 0 .none_ true h o .res .v .s .res [0] false (false) (true)
  | .jmpiU h o => fA 0x005 0 .none_ false h o .res .s .res (.lt 2) [0] false (false) (o.c == 1)
  | .land h _ => fS 0x006 h
  | .call h o => fL 0x007 0 (.fixed 2) false h o .s (true)
  | .calli h o => fA 0x008 0 (.fixed 2) false h o .s .s .res .res [0] false (false) (true)
  | .ret h o => fA 0x009 0 .none_ false h o .res .s .res .res [0] false (false) (true)
  | .loop h o => fI 0x00A 0 .none_ false h o .res .s (o.imm != 0)
  | .loopx h o => fI 0x00B 0 .none_ false h o .any .any ((o.imm != 0 && (o.d != 0 || o.a != 0)))
  | .yield h o => { fL 0x00C 0 .none_ false h o .res ((o.imm.toNat / 256 == 0 && o.imm.toNat % 128 ≤ 64)) with
      fields := [(o.d.toNat, .res), (o.imm.toNat % 128 - 1, .v)] }
  | .exit h o => fA 0x00D 0 .none_ false h o .res .res .res .res [0] false (false) (true)
  | .trap h o => fL 0x00E 0 .none_ false h o .res (true)
  | .eret h o => fA 0x00F 0 .none_ false h o .res .s .s .res [0] false (false) (true)
  | .halt h o => fA 0x010 0 .none_ false h o .res .res .res .any [0] false (false) (true)
  | .brk h o => fL 0x011 0 .none_ false h o .res (o.imm.toNat / 65536 == 0)
  | .sigck h _ => fS 0x012 h
  | .rgne h o => fL 0x013 0 .none_ false h o .res ((o.imm.toNat / 65536 == 0 && o.imm != 0))
  | .rgnl h o => fA 0x014 0 .none_ false h o .res .res .res .res [0] false (false) (true)
  | .mark h _ => fS 0x015 h
  | .waitf h o => fW 0x016 0 h o .s .any ((1 ≤ o.obj.toNat && o.obj.toNat ≤ 12 && o.count.toNat ≤ 63))
  | .vote h o => fA 0x017 0 (.fixed 8) true h o (if o.c.toNat / 4 % 2 = 1 then Use.p else Use.s) .p (if o.c.toNat % 4 = 3 then Use.s else Use.res) (.lt 8) [0] false (false) ((o.c.toNat / 4 % 2 == 0 || o.c.toNat % 4 ≤ 1))
  | .elect h o => fA 0x018 0 (.fixed 8) true h o .s .p .res .res [0] false (false) (true)
  | .widr h o => fA 0x019 0 (.fixed 4) true h o .v .res .res (.lt 7) [0] false (false) (true)
  | .maskr h o => fA 0x01A 0 (.fixed 4) true h o .v .res .res (.lt 2) [0] false (false) (true)
  | .srd h o => fI 0x01B 0 .var false h o .s .res (o.imm.toNat / 4096 == 0 && sysReads (o.imm.toNat % 4096))
  | .swr h o => fI 0x01C 0 .none_ false h o .res .s (o.imm.toNat / 4096 == 0 && sysWrites (o.imm.toNat % 4096))
  | .sadd h o => fA 0x040 0 (.fixed 2) false h o .s .s .s .res [4, 9] false (true) (true)
  | .ssub h o => fA 0x041 0 (.fixed 2) false h o .s .s .s .res [4, 9] false (true) (true)
  | .saddi h o => fI 0x042 0 (.fixed 2) false h o .s .s (true)
  | .smul h o => fA 0x043 0 (.fixed 2) false h o .s .s .s .res [4, 9] false (true) (true)
  | .smulh h o => fA 0x044 0 (.fixed 2) false h o .s .s .s .res [4, 9] false (false) (true)
  | .sdiv h o => fA 0x045 0 (.fixed 12) false h o .s .s .s .res [4, 9] false (false) (true)
  | .srem h o => fA 0x046 0 (.fixed 12) false h o .s .s .s .res [4, 9] false (false) (true)
  | .sand h o => fA 0x047 0 (.fixed 2) false h o .s .s .s .res [0] false (false) (true)
  | .sor h o => fA 0x048 0 (.fixed 2) false h o .s .s .s .res [0] false (false) (true)
  | .sxor h o => fA 0x049 0 (.fixed 2) false h o .s .s .s .res [0] false (false) (true)
  | .sandi h o => fI 0x04A 0 (.fixed 2) false h o .s .s (true)
  | .sori h o => fI 0x04B 0 (.fixed 2) false h o .s .s (true)
  | .sshl h o => fA 0x04C 0 (.fixed 2) false h o .s .s .s .res [0] false (false) (true)
  | .sshr h o => fA 0x04D 0 (.fixed 2) false h o .s .s .s .res [0] false (false) (true)
  | .ssar h o => fA 0x04E 0 (.fixed 2) false h o .s .s .s .res [0] false (false) (true)
  | .smin h o => fA 0x04F 0 (.fixed 2) false h o .s .s .s .res [4, 9] false (false) (true)
  | .smax h o => fA 0x050 0 (.fixed 2) false h o .s .s .s .res [4, 9] false (false) (true)
  | .scmp h o => fA 0x051 0 (.fixed (if o.c.toNat / 8 % 2 = 1 then 3 else 2)) false h o (if o.c.toNat / 8 % 2 = 1 then Use.p else Use.s) .s .s (.lt 16) [4, 9] false (false) (o.c.toNat % 8 ≤ 5)
  | .ssel h o => fA 0x052 0 (.fixed 2) false h o .s .s .s .s [0] false (false) (true)
  | .smov h o => fA 0x053 0 (.fixed 2) false h o .s .s .res .res [0] false (false) (true)
  | .sli h o => fL 0x054 0 (.fixed 2) false h o .s (true)
  | .slih h o => fL 0x055 0 (.fixed 2) false h o .s (o.imm.toNat / 16777216 == 0)
  | .sclz h o => fA 0x056 0 (.fixed 2) false h o .s .s .res .res [0] false (false) (true)
  | .spop h o => fA 0x057 0 (.fixed 2) false h o .s .s .res .res [0] false (false) (true)
  | .sbfx h o => fA 0x058 0 (.fixed 2) false h o .s .s .any .any [4, 9] false (false) (o.b.toNat + o.c.toNat + 1 ≤ 64)
  | .sbfi h o => fA 0x059 0 (.fixed 2) false h o .s .s .any .any [0] false (false) (o.b.toNat + o.c.toNat + 1 ≤ 64)
  | .slea h o => fA 0x05A 0 (.fixed 2) false h o .s .s .s (.lt 8) [0] false (false) (true)
  | .sv2s h o => fA 0x05B 0 (.fixed 8) false h o .s .v .s .res tAny false (false) (true)
  | .vadd h o => fA 0x080 1 (.fixed 4) true h o .v .v .v .res tIN true (true) (true)
  | .vsub h o => fA 0x081 1 (.fixed 4) true h o .v .v .v .res tIN true (true) (true)
  | .vaddi h o => fI 0x082 1 (.fixed 4) true h o .v .v (o.imm.toNat / 16384 ≤ 9)
  | .vmul h o => fA 0x083 1 (.fixed 4) true h o .v .v .v .res tIN true (true) (true)
  | .vmulh h o => fA 0x084 1 (.fixed 4) true h o .v .v .v .res tIN true (false) (true)
  | .vmad h o => fA 0x085 1 (.fixed 4) true h o .v .v .v .v tIN true (true) (true)
  | .vdot2 h o => fA 0x086 1 (.fixed 4) true h o .v .v .v .v [2, 7] true (false) (true)
  | .vdot4 h o => fA 0x087 1 (.fixed 4) true h o .v .v .v .v [1, 6] true (false) (true)
  | .vabs h o => fA 0x088 1 (.fixed 4) true h o .v .v .res .res tI false (true) (true)
  | .vneg h o => fA 0x089 1 (.fixed 4) true h o .v .v .res .res tI false (true) (true)
  | .vmin h o => fA 0x08A 1 (.fixed 4) true h o .v .v .v .res tIN true (false) (true)
  | .vmax h o => fA 0x08B 1 (.fixed 4) true h o .v .v .v .res tIN true (false) (true)
  | .vand h o => fA 0x08C 1 (.fixed 4) true h o .v .v .v .res tB true (false) (true)
  | .vor h o => fA 0x08D 1 (.fixed 4) true h o .v .v .v .res tB true (false) (true)
  | .vxor h o => fA 0x08E 1 (.fixed 4) true h o .v .v .v .res tB true (false) (true)
  | .vnot h o => fA 0x08F 1 (.fixed 4) true h o .v .v .res .res tB false (false) (true)
  | .vshl h o => fA 0x090 1 (.fixed 4) true h o .v .v .v .res tINB true (tIN.contains o.ty.toNat) (true)
  | .vshr h o => fA 0x091 1 (.fixed 4) true h o .v .v .v .res (tN ++ tB) true (false) (true)
  | .vsar h o => fA 0x092 1 (.fixed 4) true h o .v .v .v .res tI true (false) (true)
  | .vrshr h o => fA 0x093 1 (.fixed 4) true h o .v .v .v .res tIN true (false) (true)
  | .vsat h o => fA 0x094 1 (.fixed 4) true h o .v .v .res .any tIN false (false) ((1 ≤ o.c.toNat && o.c.toNat ≤ tyWidth o.ty.toNat))
  | .vclz h o => fA 0x095 1 (.fixed 4) true h o .v .v .res .res tINB false (false) (true)
  | .vpop h o => fA 0x096 1 (.fixed 4) true h o .v .v .res .res tINB false (false) (true)
  | .vcmp h o => fA 0x097 1 (.fixed 4) true h o .p .v .v .any t8 true (false) ((o.c.toNat % 8 ≤ (if tB.contains o.ty.toNat then 1 else 5) && o.c.toNat / 8 < tySubs o.ty.toNat))
  | .vsel h o => fA 0x098 1 (.fixed 4) true h o .v .v .v .p [0] false (false) (true)
  | .vmov h o => fA 0x099 1 (.fixed 4) true h o .v .v .res .res [0] false (false) (true)
  | .vbcst h o => fA 0x09A 1 (.fixed 4) true h o .v .res .s .res tINB false (false) (true)
  | .vli h o => fL 0x09B 1 (.fixed 4) true h o .v (o.imm.toNat / 4194304 ≤ 4)
  | .vpack h o => fA 0x09C 1 (.fixed 4) true h o .v .v .v .res [0, 1, 2, 3, 5, 6, 7, 8] true (true) (true)
  | .vunpk h o => fA 0x09D 1 (.fixed 4) true h o .v .v .res (.lt 2) [0, 1, 2, 3, 5, 6, 7, 8] false (false) (true)
  | .viota h o => fA 0x09E 1 (.fixed 4) true h o .v .res .res .res tINB false (false) (true)
  | .fadd h o => fA 0x100 1 (.fixed 6) true h o .v .v .v .res tF true (true) (true)
  | .fsub h o => fA 0x101 1 (.fixed 6) true h o .v .v .v .res tF true (true) (true)
  | .fmul h o => fA 0x102 1 (.fixed 6) true h o .v .v .v .res tF true (true) (true)
  | .ffma h o => fA 0x103 1 (.fixed 6) true h o .v .v .v .v tF true (true) (true)
  | .fmin h o => fA 0x104 1 (.fixed 6) true h o .v .v .v .res tF true (false) (true)
  | .fmax h o => fA 0x105 1 (.fixed 6) true h o .v .v .v .res tF true (false) (true)
  | .fcmp h o => fA 0x106 1 (.fixed 6) true h o .p .v .v .any tF true (false) (o.c.toNat / 8 < tySubs o.ty.toNat)
  | .fcvt h o => fA 0x107 1 (.fixed 6) true h o .v .v .s .any tAny false (true) (fcvtOk o.ty.toNat (o.c.toNat % 32) (o.c.toNat / 32 == 1) (o.b.toNat != 0))
  | .frcp h o => fA 0x108 1 (.fixed 12) true h o .v .v .res .res tF false (true) (true)
  | .frsq h o => fA 0x109 1 (.fixed 12) true h o .v .v .res .res tF false (true) (true)
  | .fexp2 h o => fA 0x10A 1 (.fixed 12) true h o .v .v .res .res tF false (true) (true)
  | .flog2 h o => fA 0x10B 1 (.fixed 12) true h o .v .v .res .res tF false (true) (true)
  | .fclass h o => fA 0x10C 1 (.fixed 6) true h o .v .v .res .res tF false (false) (true)
  | .fscl h o => fA 0x10D 1 (.fixed 6) true h o .v .v .v .res tF true (true) (true)
  | .xlane h o => fA 0x140 1 (.fixed 8) true h o .v .v .v .res tAny true (false) (true)
  | .slide h o => fA 0x141 1 (.fixed 8) true h o .v .v .s (.lt 3) tAny false (false) (true)
  | .perm h o => fA 0x142 1 (.fixed 8) true h o .v .v .res (.lt 16) tAny false (false) (true)
  | .ptld h o => fA 0x143 1 .none_ false h o .res .v .res (.lt 16) [0] false (false) (true)
  | .vred h o => fA 0x144 1 (.fixed 8) true h o .v .v .res (.lt 8) (tINB ++ tF) false ((!tB.contains o.ty.toNat)) (redOk o.ty.toNat (o.c.toNat % 8))
  | .vscan h o => fA 0x145 1 (.fixed 8) true h o .v .v .res (.lt 16) (tINB ++ tF) false ((!tB.contains o.ty.toNat)) (redOk o.ty.toNat (o.c.toNat % 8))
  | .topk h o => fA 0x146 1 .var true h o .v .v .s (.lt 2) (tIN ++ tF) false (false) (true)
  | .topkx h o => fA 0x147 1 .var true h o .v .v .s (.lt 2) (tIN ++ tF) false (false) (true)
  | .pand h o => fA 0x148 1 (.fixed 3) true h o .p .p .p .res [0] false (false) (true)
  | .por h o => fA 0x149 1 (.fixed 3) true h o .p .p .p .res [0] false (false) (true)
  | .pxor h o => fA 0x14A 1 (.fixed 3) true h o .p .p .p .res [0] false (false) (true)
  | .pnot h o => fA 0x14B 1 (.fixed 3) true h o .p .p .res .res [0] false (false) (true)
  | .ldtld h o => fM 0x160 3 false h o .res .s .s [0] (((o.order == 0 && o.scope == 0) || o.order == 1))
  | .cinit h o => fA 0x161 3 .var true h o .c .s .v (.lt 1) [0] true (false) (true)
  | .cinitA h o => fA 0x161 3 .var true h o .c .s .v (.lt 2) [0] true (false) (o.c == 1)
  | .cdesc h o => fA 0x162 3 .var true h o .c .c .s .res [0] false (false) (true)
  | .cnext h o => fA 0x163 3 .var true h o .c .res .res .p [0] false (false) (true)
  | .cseek h o => fA 0x164 3 .var true h o .c .res .v (.lt 16) [0] true (false) (true)
  | .ccoit h o => fA 0x165 3 .var true h o (.rng 1 6) .c .c (.lt 2) [0] false (false) (true)
  | .ccrd h o => fA 0x166 3 .var true h o .v .c .res .res [0] false (false) (true)
  | .cpos h o => fA 0x167 3 .var true h o .v .c .res .res [0] false (false) (true)
  | .cvld h o => fM 0x168 3 true h o .v .c .res tAcc ((((o.order == 0 && o.scope == 0) || o.order == 1) && !o.space))
  | .cvst h o => fM 0x169 3 true h o .res .c .v tAcc ((((o.order == 0 && o.scope == 0) || o.order == 2) && !o.space))
  | .capp h o => fM 0x16A 3 true h o .c .v (.lt 2) tApp ((((o.order == 0 && o.scope == 0) || o.order == 2) && !o.space))
  | .cclose h o => fA 0x16B 3 .var true h o .c .res .res .res [0] false (false) (true)
  | .cheap h o => fA 0x16C 3 .var false h o .res .s .res (.lt 4) [0] false (false) (true)
  | .cmov h o => fA 0x16D 3 .var true h o .c .c .res .res [0] false (false) (true)
  | .ctest h o => fA 0x16E 3 .var true h o .p .c .res (.lt 4) [0] false (false) (true)
  | .cpref h o => fM 0x16F 3 true h o .res .c (.rng 1 63) (0 :: tAcc) (((o.order == 0 && o.scope == 0) && !o.space))
  | .ld h o => fM 0x180 2 true h o .v .v .s tAcc ((o.order == 0 && o.scope == 0))
  | .st h o => fM 0x181 2 true h o .v .v .s tAcc ((o.order == 0 && o.scope == 0))
  | .lda h o => fM 0x182 2 true h o .v .v .s tAcc (o.order == 1)
  | .stl h o => fM 0x183 2 true h o .v .v .s tAcc (o.order == 2)
  | .ldt h o => fM 0x184 2 true h o .v .v .s tF (((o.order == 0 && o.scope == 0) && !o.space))
  | .ldtt h o => fM 0x185 2 true h o .v .v .s tF (((o.order == 0 && o.scope == 0) && !o.space))
  | .stt h o => fM 0x186 2 false h o .v .s .s tF ((((o.order == 0 && o.scope == 0) || o.order == 2) && o.hint == 0 && !o.space))
  | .atom h o => fM 0x187 2 true h o .v .v (.lt 8) [3, 4, 8, 9, 0xC, 0xD, 0x10] (((o.order != 0 || o.scope == 0) && o.hint == 0 && atomOk o.ty.toNat o.b.toNat))
  | .fence h o => fM 0x188 2 false h o .res .res .res [0] ((o.order != 0 && o.hint == 0 && !o.space))
  | .cinv h o => fM 0x189 2 false h o (.lt 4) .s .s [0] (((o.order == 0 && o.scope == 0) && o.hint == 0 && !o.space && (o.d.toNat / 2 == 0 || (o.a == 0 && o.b == 0))))
  | .pref h o => fM 0x18A 2 true h o .res .v .s [0] (((o.order == 0 && o.scope == 0) && o.hint.toNat ≤ 1 && !o.space))
  | .cpy h o => fA 0x18B 4 .var false h o .s .s .s .any [0] false (false) (true)
  | .cpyt h o => fA 0x18C 4 .var false h o .s .s .s .any [0] false (false) (true)
  | .cpyg h o => fA 0x18D 4 .var false h o .s .s .s .any [0] false (false) (true)
  | .coll h o => fA 0x18E 4 .var false h o .s .s .s (.lt 8) (if o.c.toNat % 4 = 3 then [0x10] else [3, 4, 8, 9, 0xE, 0xF, 0x10]) false (false) (true)
  | .wbld h o => fA 0x1A0 4 .var false h o .w .s .s .s [0] false (false) (true)
  | .wbinv h o => fA 0x1A1 4 .var false h o .w .res .res .res [0] false (false) (true)
  | .azero h o => fA 0x1A2 4 .var false h o .a .res .res .res [0] false (false) (true)
  | .mma h o => fA 0x1A3 4 .var false h o .a .s .w .s [0, 1, 0xF, 0xE, 0x11, 0x12, 0x13, 0x14] false (true) (true)
  | .mmas h o => fA 0x1A4 4 .var false h o .a .s .w .s [0, 1, 0xF, 0xE, 0x11, 0x12, 0x13, 0x14] false (true) (true)
  | .aprom h o => fI 0x1A5 4 .var false h o .a .res ((1 ≤ o.imm.toNat && o.imm.toNat ≤ 64))
  | .adrn h o => fA 0x1A6 4 .var false h o .a .s .res .res [0] false (true) (true)
  | .ard h o => fA 0x1A7 4 .var true h o .v .a .s .res [0] false (false) (true)
  | .awr h o => fA 0x1A8 4 .var true h o .a .v .s .res [0] false (false) (true)
  | .barv h o => fW 0x1B0 2 h o .s .any ((o.t == 0 && o.count.toNat ≤ 16))
  | .bwait h o => fW 0x1B1 2 h o .s .any (o.count.toNat ≤ 1)
  | .bsync h o => fW 0x1B2 2 h o .s .any (o.count.toNat ≤ 16)
  | .bdrop h o => fW 0x1B3 2 h o .s .any ((o.t == 0 && o.count.toNat ≤ 16))
  | .bexp h o => fW 0x1B4 2 h o .res .any (o.t.toNat ≤ 8)
  | .cbar h o => fW 0x1B5 2 h o .s .any ((o.obj.toNat < 8 && o.count == 0))
  | .gbar h o => fW 0x1B6 2 h o .s .any (o.obj.toNat < 4)
  | .dcset h o => fI 0x1B7 2 .var false h o .s .s (o.imm == 0)
  | .dcadd h o => fI 0x1B8 2 .var false h o .s .s (true)
  | .dcwait h o => fW 0x1B9 2 h o .s .s (o.count.toNat < 4096)
  | .time h o => fA 0x1BA 2 .var false h o .s .res .res .res [0] false (false) (true)
  | .cyc h o => fA 0x1BB 2 .var false h o .s .res .res (.lt 2) [0] false (false) (true)
  | .enq h o => fA 0x1C0 2 .var false h o .s .s .s .res [0] false (false) (true)
  | .deq h o => fA 0x1C1 2 .var false h o .s .s .s (.lt 1) [0] false (false) (true)
  | .deqHdr h o => fA 0x1C1 2 .var false h o .s (.lt 8) .res .any [0] false (false) (o.c == 1)
  | .deqArg h o => fA 0x1C1 2 .var false h o .s .res .res .any [0] false (false) (o.c == 2)
  | .qcwRd h o => fA 0x1C2 2 .var false h o .s .res .res (.lt 8) [0] false (false) (true)
  | .qcwRst h o => fA 0x1C2 2 .var false h o .res .res .res (.rng 8 15) [0] false (false) (true)
  | .qpush h o => fA 0x1C3 2 .var false h o .res .s .res (.lt 8) [0] false (false) (true)
  | .qpop h o => fA 0x1C4 2 .var true h o .v .res .s (.lt 8) [0] false (false) (true)
  | .qpeek h o => fA 0x1C5 2 .var true h o .v .res .s (.lt 8) [0] false (false) (true)
  | .debugStop ..
  | .instructionCompletion ..
  | .faultRaise ..
  | .deferredRecordWrite ..
  | .waitTimeout ..
  | .classPromotion ..
  | .hostEnqueue ..
  | .dispatchStep ..
  | .startTimeReached ..
  | .taskCompletion ..
  | .steal ..
  | .copyBlock ..
  | .collMatch ..
  | .collCompletion ..
  | .fifoHeadLeave ..
  | .mmaChunk ..
  | .drainExecute ..
  | .wbldCompletion ..
  | .groupSave ..
  | .kill ..
  | .preempt ..
  | .resume ..
  | .resolve ..
  | .invalidateAll ..
  | .invalidateTenant ..
  | .invalidatePages ..
  | .taskQueueStateWrite ..
  | .contextEntryWrite ..
  | .gridMapWrite ..
  | .importWindowWrite ..
  | .vfBindingWrite ..
  | .hostRegisterWrite ..
  | .spinthWrite ..
  | .aelogWrite ..
  | .bkctlWrite ..
  | .ssctlWrite ..
  | .spcWrite ..
  | .stallSample ..
  | .hostMemoryRead ..
  | .hostMemoryWrite ..
  | .atsInvalidation ..
  | .spdmGetVersion ..
  | .spdmGetCapabilities ..
  | .spdmNegotiateAlgorithms ..
  | .spdmGetDigests ..
  | .spdmGetCertificate ..
  | .spdmChallenge ..
  | .spdmGetMeasurements ..
  | .flitReceive ..
  | .linkRetrain ..
  | .laneRotation ..
  | .remoteRequest ..
  | .pathDown ..
  | .gridArrivalMessage ..
  | .gridCompletionMessage ..
  | .sensorPeriod ..
  | .relockBegin ..
  | .relockEnd ..
  | .ptpMessage ..
  | .ppsPulse ..
  | .ptpLoss ..
  | .epoch ..
  | .errorDetection ..
  | .errorWindowExpiry ..
  | .ueExpiry ..
  | .lastingFaultAction ..
  | .rowSpareEffect ..
  | .fatalCondition ..
  | .freezeReceipt ..
  | .capsuleAssembly ..
  | .powerOnReset ..
  | .warmReset ..
  | .mailboxId ..
  | .fwload ..
  | .cert ..
  | .step ..
  | .limitsRead ..
  | .limitsSet ..
  | .stateActive ..
  | .stateQuiesce ..
  | .stateStandby ..
  | .stateWarmReset ..
  | .svnset ..
  | .mailboxTime ..
  | .errors ..
  | .clear ..
  | .caplist ..
  | .capget ..
  | .capack ..
  | .capfreeze ..
  | .coreCycle ..
  | .linkRetrainComplete ..
  | .powerLoss ..
    => { opc := 0x200, tgt := 0, lat := .none_, sweep := false, head := ⟨0, 0, 0, 0⟩, fields := [], ok := false }

/-- Whether the result of an instruction is readable section by section (R90): not that of VRED and VSCAN (R136). -/
def Info.bySection (n : Info) : Bool := n.sweep && n.opc != 0x144 && n.opc != 0x145

/-- A field value legal for its file (R95, R98); a vector register below the budget. -/
def Use.fits (budget : Nat) (e : Nat × Use) : Bool :=
  match e.2 with
  | .res => e.1 == 0
  | .s => decide (e.1 < 64)
  | .v => decide (e.1 < budget)
  | .p | .c | .w => decide (e.1 < 8)
  | .a => decide (e.1 < 16)
  | .any => true
  | .lt n => decide (e.1 < n)
  | .rng lo hi => decide (lo ≤ e.1 ∧ e.1 ≤ hi)

/-- The static conditions of R103: guard, SIG, fields, types and modifiers, with vector registers below `budget`. -/
def Info.legal (budget : Nat) (n : Info) : Bool :=
  n.ok && decide (n.head.sig.toNat ≤ 12) && n.head.guard != 0b1000#4 && n.fields.all (Use.fits budget)

/-- What a gatherer may not name (R105): a guard, WAIT or SIG, vector registers, predicates, accumulators, slots, and scalar
registers from 32 up. The cursor range and LD name gatherer scalars where a team names vectors and predicates (R180, R308). -/
def Info.gathLegal (n : Info) : Bool :=
  n.head.guard == 0 && n.head.wait == 0 && n.head.sig == 0 &&
  n.fields.all (fun e => match e.2 with
    | .s => decide (e.1 < 32)
    | .v | .p => (n.tgt == 3 || n.opc == 0x180 || n.opc == 0x182) && decide (e.1 < 32)
    | .a | .w => false
    | _ => true)

end Sys2Proof.Machine
end

