-- ==== Sys2Proof/WellFormed.lean ====
section
/-! DEFINITION. Which instructions are well-formed: the static checks of R103 on a word's fields, and for an event of the
device that the unit it names exists. -/

namespace Sys2Proof

open Sys2Proof.Machine

/-- The check that failed. -/
inductive WfError where
  /-- SIG of 13 to 15 (R86, R103). -/
  | sig
  /-- Guard 0b1000 (R94, R103). -/
  | guard
  /-- A field outside its file or a reserved field that is not zero (R95, R98); the number of the field. -/
  | field (n : Nat)
  /-- A reserved bit, type, modifier, scope, order, hint or space the instruction does not accept (R96, R97, R103). -/
  | form
  /-- An event that names a unit the device does not have. -/
  | unit (name : String) (i : Nat)
deriving DecidableEq, Repr

/-- The units an event names, with the number of such units (R7, R8, R10, R398 to R402). -/
def eventUnits (i : Instr) : List (String × Nat × Nat) :=
  match i with
  | .debugStop core slot => [("core", core, 192), ("slot", slot, 16)]
  | .instructionCompletion core slot _ => [("core", core, 192), ("slot", slot, 16)]
  | .faultRaise core slot => [("core", core, 192), ("slot", slot, 16)]
  | .deferredRecordWrite die => [("die", die, 4)]
  | .waitTimeout core slot => [("core", core, 192), ("slot", slot, 16)]
  | .classPromotion core slot => [("core", core, 192), ("slot", slot, 16)]
  | .hostEnqueue fn q _ _ => [("fn", fn, 17), ("q", q, 256)]
  | .dispatchStep die => [("die", die, 4)]
  | .startTimeReached q _ => [("q", q, 256)]
  | .taskCompletion q _ => [("q", q, 256)]
  | .steal die => [("die", die, 4)]
  | .copyBlock core _ => [("core", core, 192)]
  | .collMatch core _ _ => [("core", core, 192)]
  | .collCompletion core _ _ => [("core", core, 192)]
  | .fifoHeadLeave core => [("core", core, 192)]
  | .mmaChunk core => [("core", core, 192)]
  | .drainExecute core => [("core", core, 192)]
  | .wbldCompletion core _ => [("core", core, 192)]
  | .groupSave core _ => [("core", core, 192)]
  | .kill die _ => [("die", die, 4)]
  | .preempt die _ => [("die", die, 4)]
  | .resume die _ => [("die", die, 4)]
  | .resolve die _ => [("die", die, 4)]
  | .invalidateAll die _ => [("die", die, 4)]
  | .invalidateTenant die _ => [("die", die, 4)]
  | .invalidatePages die _ => [("die", die, 4)]
  | .taskQueueStateWrite q _ => [("q", q, 256)]
  | .contextEntryWrite k _ => [("k", k, 256)]
  | .gridMapWrite k _ => [("k", k, 4)]
  | .importWindowWrite k _ => [("k", k, 16)]
  | .vfBindingWrite k _ => [("k", k, 16)]
  | .hostRegisterWrite _ _ => []
  | .spinthWrite core _ => [("core", core, 192)]
  | .aelogWrite core _ => [("core", core, 192)]
  | .bkctlWrite core k _ => [("core", core, 192), ("k", k, 8)]
  | .ssctlWrite core _ => [("core", core, 192)]
  | .spcWrite core j _ => [("core", core, 192), ("j", j, 8)]
  | .stallSample core => [("core", core, 192)]
  | .hostMemoryRead fn _ _ => [("fn", fn, 17)]
  | .hostMemoryWrite fn _ _ => [("fn", fn, 17)]
  | .atsInvalidation fn _ => [("fn", fn, 17)]
  | .spdmGetVersion _ => []
  | .spdmGetCapabilities _ => []
  | .spdmNegotiateAlgorithms _ => []
  | .spdmGetDigests _ => []
  | .spdmGetCertificate _ => []
  | .spdmChallenge _ => []
  | .spdmGetMeasurements _ => []
  | .flitReceive port _ => [("port", port, 16)]
  | .linkRetrain port => [("port", port, 16)]
  | .laneRotation port _ => [("port", port, 30)]
  | .remoteRequest _ => []
  | .pathDown dev => [("dev", dev, 256)]
  | .gridArrivalMessage k _ _ => [("k", k, 4)]
  | .gridCompletionMessage k _ => [("k", k, 4)]
  | .sensorPeriod _ _ => []
  | .relockBegin die => [("die", die, 4)]
  | .relockEnd die => [("die", die, 4)]
  | .ptpMessage _ => []
  | .ppsPulse => []
  | .ptpLoss => []
  | .epoch => []
  | .errorDetection site _ => match site with | .core core strct _ _ => [("structure", strct, 15), ("core", core, 192)] | .mem _ => [] | .slice _ => []
  | .errorWindowExpiry core => [("core", core, 192)]
  | .ueExpiry core k => [("core", core, 192), ("k", k, 15)]
  | .lastingFaultAction core k => [("core", core, 192), ("k", k, 15)]
  | .rowSpareEffect core k => [("core", core, 192), ("k", k, 15)]
  | .fatalCondition odie _ cause _ => [("cause", if cause = 0 then 7 else cause - 1, 7), ("odie", odie, 6)]
  | .freezeReceipt die _ => [("die", die, 6)]
  | .capsuleAssembly _ => []
  | .powerOnReset _ => []
  | .warmReset => []
  | .mailboxId fn _ _ => [("fn", fn, 18)]
  | .fwload fn _ _ _ => [("fn", fn, 18)]
  | .cert fn _ _ => [("fn", fn, 18)]
  | .step fn _ _ => [("fn", fn, 18)]
  | .limitsRead fn _ _ => [("fn", fn, 18)]
  | .limitsSet fn _ _ => [("fn", fn, 18)]
  | .stateActive fn _ _ => [("fn", fn, 18)]
  | .stateQuiesce fn _ _ => [("fn", fn, 18)]
  | .stateStandby fn _ _ => [("fn", fn, 18)]
  | .stateWarmReset fn _ _ => [("fn", fn, 18)]
  | .svnset fn _ _ => [("fn", fn, 18)]
  | .mailboxTime fn _ _ => [("fn", fn, 18)]
  | .errors fn _ _ => [("fn", fn, 18)]
  | .clear fn _ _ => [("fn", fn, 18)]
  | .caplist fn _ _ => [("fn", fn, 18)]
  | .capget fn _ _ => [("fn", fn, 18)]
  | .capack fn _ _ => [("fn", fn, 18)]
  | .capfreeze fn _ _ => [("fn", fn, 18)]
  | .coreCycle die => [("die", die, 4)]
  | .linkRetrainComplete port _ => [("port", port, 16)]
  | .powerLoss _ => []
  | .nop ..
  | .bra ..
  | .brs ..
  | .brc ..
  | .jmpi ..
  | .jmpiU ..
  | .land ..
  | .call ..
  | .calli ..
  | .ret ..
  | .loop ..
  | .loopx ..
  | .yield ..
  | .exit ..
  | .trap ..
  | .eret ..
  | .halt ..
  | .brk ..
  | .sigck ..
  | .rgne ..
  | .rgnl ..
  | .mark ..
  | .waitf ..
  | .vote ..
  | .elect ..
  | .widr ..
  | .maskr ..
  | .srd ..
  | .swr ..
  | .sadd ..
  | .ssub ..
  | .saddi ..
  | .smul ..
  | .smulh ..
  | .sdiv ..
  | .srem ..
  | .sand ..
  | .sor ..
  | .sxor ..
  | .sandi ..
  | .sori ..
  | .sshl ..
  | .sshr ..
  | .ssar ..
  | .smin ..
  | .smax ..
  | .scmp ..
  | .ssel ..
  | .smov ..
  | .sli ..
  | .slih ..
  | .sclz ..
  | .spop ..
  | .sbfx ..
  | .sbfi ..
  | .slea ..
  | .sv2s ..
  | .vadd ..
  | .vsub ..
  | .vaddi ..
  | .vmul ..
  | .vmulh ..
  | .vmad ..
  | .vdot2 ..
  | .vdot4 ..
  | .vabs ..
  | .vneg ..
  | .vmin ..
  | .vmax ..
  | .vand ..
  | .vor ..
  | .vxor ..
  | .vnot ..
  | .vshl ..
  | .vshr ..
  | .vsar ..
  | .vrshr ..
  | .vsat ..
  | .vclz ..
  | .vpop ..
  | .vcmp ..
  | .vsel ..
  | .vmov ..
  | .vbcst ..
  | .vli ..
  | .vpack ..
  | .vunpk ..
  | .viota ..
  | .fadd ..
  | .fsub ..
  | .fmul ..
  | .ffma ..
  | .fmin ..
  | .fmax ..
  | .fcmp ..
  | .fcvt ..
  | .frcp ..
  | .frsq ..
  | .fexp2 ..
  | .flog2 ..
  | .fclass ..
  | .fscl ..
  | .xlane ..
  | .slide ..
  | .perm ..
  | .ptld ..
  | .vred ..
  | .vscan ..
  | .topk ..
  | .topkx ..
  | .pand ..
  | .por ..
  | .pxor ..
  | .pnot ..
  | .ldtld ..
  | .cinit ..
  | .cinitA ..
  | .cdesc ..
  | .cnext ..
  | .cseek ..
  | .ccoit ..
  | .ccrd ..
  | .cpos ..
  | .cvld ..
  | .cvst ..
  | .capp ..
  | .cclose ..
  | .cheap ..
  | .cmov ..
  | .ctest ..
  | .cpref ..
  | .ld ..
  | .st ..
  | .lda ..
  | .stl ..
  | .ldt ..
  | .ldtt ..
  | .stt ..
  | .atom ..
  | .fence ..
  | .cinv ..
  | .pref ..
  | .cpy ..
  | .cpyt ..
  | .cpyg ..
  | .coll ..
  | .wbld ..
  | .wbinv ..
  | .azero ..
  | .mma ..
  | .mmas ..
  | .aprom ..
  | .adrn ..
  | .ard ..
  | .awr ..
  | .barv ..
  | .bwait ..
  | .bsync ..
  | .bdrop ..
  | .bexp ..
  | .cbar ..
  | .gbar ..
  | .dcset ..
  | .dcadd ..
  | .dcwait ..
  | .time ..
  | .cyc ..
  | .enq ..
  | .deq ..
  | .deqHdr ..
  | .deqArg ..
  | .qcwRd ..
  | .qcwRst ..
  | .qpush ..
  | .qpop ..
  | .qpeek ..
    => []

/-- The number of the first field that does not fit its file. -/
def badField : Nat → List (Nat × Use) → Option Nat
  | _, [] => none
  | n, e :: es => if Use.fits 64 e then badField (n + 1) es else some n

/-- The static checks on an instruction word. -/
def checkInfo (n : Info) : Option WfError :=
  if 12 < n.head.sig.toNat then some .sig
  else if n.head.guard = 0b1000#4 then some .guard
  else match badField 0 n.fields with
    | some k => some (.field k)
    | none => if n.ok then none else some .form

/-- The first unit of an event that does not exist. -/
def checkUnits : List (String × Nat × Nat) → Option WfError
  | [] => none
  | (nm, i, b) :: us => if i < b then checkUnits us else some (.unit nm i)

/-- What keeps an instruction or event from being well-formed, if anything does. -/
def Instr.check (i : Instr) : Option WfError :=
  if (instrInfo i).opc < 512 then checkInfo (instrInfo i) else checkUnits (eventUnits i)

/-- Well-formed. -/
def Instr.wf (i : Instr) : Bool := i.check == none

end Sys2Proof
end

