-- ==== Sys2Proof/Decode.lean ====
section
/-! DEFINITION. The decoder (05 R86 to R103): total on every word, rejecting by name; and the encoder, from the same layouts. -/

namespace Sys2Proof

/-- Why bytes are no instruction (R103): each case raises the illegal-instruction fault when the word is issued. -/
inductive DecodeError where
  | truncated
  | opcodeZero
  | unallocated (opc : Nat)
  | formatS
  | illFormed (e : WfError)
deriving DecidableEq, Repr

/-- Bits `lo` upwards of a word, `n` of them. -/
def bitsOf (w : Word) (lo n : Nat) : BitVec n := BitVec.ofNat n (w.toNat / 2 ^ lo)

/-- The opcode of a word, bits 43:35 (R86). -/
def opcOf (w : Word) : Nat := (bitsOf w 35 9).toNat

/-- STALL, WAIT, SIG and the guard (R86, R93). -/
def headOf (w : Word) : Head :=
  { stall := bitsOf w 60 4, wait := bitsOf w 48 12, sig := bitsOf w 44 4, guard := bitsOf w 31 4 }

/-- The head of a format-S word, which has no guard. -/
def headS (w : Word) : Head := { headOf w with guard := 0 }

/-- Format A (R93, R96). -/
def fmtA (w : Word) (k : Head → FmtA → Instr) : Except DecodeError Instr :=
  .ok (k (headOf w) { d := bitsOf w 25 6, a := bitsOf w 19 6, b := bitsOf w 13 6, c := bitsOf w 7 6,
                       bs := bitsOf w 6 1 == 1, x := bitsOf w 5 1 == 1, ty := bitsOf w 0 5 })

/-- Format I (R93). -/
def fmtI (w : Word) (k : Head → FmtI → Instr) : Except DecodeError Instr :=
  .ok (k (headOf w) { d := bitsOf w 25 6, a := bitsOf w 19 6, imm := bitsOf w 0 19 })

/-- Format L (R93). -/
def fmtL (w : Word) (k : Head → FmtL → Instr) : Except DecodeError Instr :=
  .ok (k (headOf w) { d := bitsOf w 25 6, imm := bitsOf w 0 25 })

/-- Format B (R93). -/
def fmtB (w : Word) (k : Head → FmtB → Instr) : Except DecodeError Instr :=
  .ok (k (headOf w) { target := bitsOf w 15 16, join := bitsOf w 0 15 })

/-- Format M (R93, R97). -/
def fmtM (w : Word) (k : Head → FmtM → Instr) : Except DecodeError Instr :=
  .ok (k (headOf w) { d := bitsOf w 25 6, a := bitsOf w 19 6, b := bitsOf w 13 6, ty := bitsOf w 8 5,
                       scope := bitsOf w 5 3, order := bitsOf w 3 2, hint := bitsOf w 1 2, space := bitsOf w 0 1 == 1 })

/-- Format S: bits 34:32 must be zero (R93, R98). -/
def fmtS (w : Word) (k : Head → FmtS → Instr) : Except DecodeError Instr :=
  if bitsOf w 32 3 = 0 then .ok (k (headS w) { imm := bitsOf w 0 32 }) else .error .formatS

/-- Format W (R93, R100). -/
def fmtW (w : Word) (k : Head → FmtW → Instr) : Except DecodeError Instr :=
  .ok (k (headOf w) { d := bitsOf w 25 6, obj := bitsOf w 20 5, t := bitsOf w 16 4, count := bitsOf w 0 16 })

/-- The opcode map (R102), before the checks of R103. -/
def decodeAs (opc : Nat) (w : Word) : Except DecodeError Instr :=
  match opc with
  | 0x000 => .error .opcodeZero
  | 0x001 => fmtA w (fun h o => .nop h o)
  | 0x002 => fmtB w (fun h o => .bra h o)
  | 0x003 => fmtB w (fun h o => .brs h o)
  | 0x004 => fmtB w (fun h o => .brc h o)
  | 0x005 => fmtA w (fun h o => if o.c == 1 then .jmpiU h o else .jmpi h o)
  | 0x006 => fmtS w (fun h o => .land h o)
  | 0x007 => fmtL w (fun h o => .call h o)
  | 0x008 => fmtA w (fun h o => .calli h o)
  | 0x009 => fmtA w (fun h o => .ret h o)
  | 0x00A => fmtI w (fun h o => .loop h o)
  | 0x00B => fmtI w (fun h o => .loopx h o)
  | 0x00C => fmtL w (fun h o => .yield h o)
  | 0x00D => fmtA w (fun h o => .exit h o)
  | 0x00E => fmtL w (fun h o => .trap h o)
  | 0x00F => fmtA w (fun h o => .eret h o)
  | 0x010 => fmtA w (fun h o => .halt h o)
  | 0x011 => fmtL w (fun h o => .brk h o)
  | 0x012 => fmtS w (fun h o => .sigck h o)
  | 0x013 => fmtL w (fun h o => .rgne h o)
  | 0x014 => fmtA w (fun h o => .rgnl h o)
  | 0x015 => fmtS w (fun h o => .mark h o)
  | 0x016 => fmtW w (fun h o => .waitf h o)
  | 0x017 => fmtA w (fun h o => .vote h o)
  | 0x018 => fmtA w (fun h o => .elect h o)
  | 0x019 => fmtA w (fun h o => .widr h o)
  | 0x01A => fmtA w (fun h o => .maskr h o)
  | 0x01B => fmtI w (fun h o => .srd h o)
  | 0x01C => fmtI w (fun h o => .swr h o)
  | 0x040 => fmtA w (fun h o => .sadd h o)
  | 0x041 => fmtA w (fun h o => .ssub h o)
  | 0x042 => fmtI w (fun h o => .saddi h o)
  | 0x043 => fmtA w (fun h o => .smul h o)
  | 0x044 => fmtA w (fun h o => .smulh h o)
  | 0x045 => fmtA w (fun h o => .sdiv h o)
  | 0x046 => fmtA w (fun h o => .srem h o)
  | 0x047 => fmtA w (fun h o => .sand h o)
  | 0x048 => fmtA w (fun h o => .sor h o)
  | 0x049 => fmtA w (fun h o => .sxor h o)
  | 0x04A => fmtI w (fun h o => .sandi h o)
  | 0x04B => fmtI w (fun h o => .sori h o)
  | 0x04C => fmtA w (fun h o => .sshl h o)
  | 0x04D => fmtA w (fun h o => .sshr h o)
  | 0x04E => fmtA w (fun h o => .ssar h o)
  | 0x04F => fmtA w (fun h o => .smin h o)
  | 0x050 => fmtA w (fun h o => .smax h o)
  | 0x051 => fmtA w (fun h o => .scmp h o)
  | 0x052 => fmtA w (fun h o => .ssel h o)
  | 0x053 => fmtA w (fun h o => .smov h o)
  | 0x054 => fmtL w (fun h o => .sli h o)
  | 0x055 => fmtL w (fun h o => .slih h o)
  | 0x056 => fmtA w (fun h o => .sclz h o)
  | 0x057 => fmtA w (fun h o => .spop h o)
  | 0x058 => fmtA w (fun h o => .sbfx h o)
  | 0x059 => fmtA w (fun h o => .sbfi h o)
  | 0x05A => fmtA w (fun h o => .slea h o)
  | 0x05B => fmtA w (fun h o => .sv2s h o)
  | 0x080 => fmtA w (fun h o => .vadd h o)
  | 0x081 => fmtA w (fun h o => .vsub h o)
  | 0x082 => fmtI w (fun h o => .vaddi h o)
  | 0x083 => fmtA w (fun h o => .vmul h o)
  | 0x084 => fmtA w (fun h o => .vmulh h o)
  | 0x085 => fmtA w (fun h o => .vmad h o)
  | 0x086 => fmtA w (fun h o => .vdot2 h o)
  | 0x087 => fmtA w (fun h o => .vdot4 h o)
  | 0x088 => fmtA w (fun h o => .vabs h o)
  | 0x089 => fmtA w (fun h o => .vneg h o)
  | 0x08A => fmtA w (fun h o => .vmin h o)
  | 0x08B => fmtA w (fun h o => .vmax h o)
  | 0x08C => fmtA w (fun h o => .vand h o)
  | 0x08D => fmtA w (fun h o => .vor h o)
  | 0x08E => fmtA w (fun h o => .vxor h o)
  | 0x08F => fmtA w (fun h o => .vnot h o)
  | 0x090 => fmtA w (fun h o => .vshl h o)
  | 0x091 => fmtA w (fun h o => .vshr h o)
  | 0x092 => fmtA w (fun h o => .vsar h o)
  | 0x093 => fmtA w (fun h o => .vrshr h o)
  | 0x094 => fmtA w (fun h o => .vsat h o)
  | 0x095 => fmtA w (fun h o => .vclz h o)
  | 0x096 => fmtA w (fun h o => .vpop h o)
  | 0x097 => fmtA w (fun h o => .vcmp h o)
  | 0x098 => fmtA w (fun h o => .vsel h o)
  | 0x099 => fmtA w (fun h o => .vmov h o)
  | 0x09A => fmtA w (fun h o => .vbcst h o)
  | 0x09B => fmtL w (fun h o => .vli h o)
  | 0x09C => fmtA w (fun h o => .vpack h o)
  | 0x09D => fmtA w (fun h o => .vunpk h o)
  | 0x09E => fmtA w (fun h o => .viota h o)
  | 0x100 => fmtA w (fun h o => .fadd h o)
  | 0x101 => fmtA w (fun h o => .fsub h o)
  | 0x102 => fmtA w (fun h o => .fmul h o)
  | 0x103 => fmtA w (fun h o => .ffma h o)
  | 0x104 => fmtA w (fun h o => .fmin h o)
  | 0x105 => fmtA w (fun h o => .fmax h o)
  | 0x106 => fmtA w (fun h o => .fcmp h o)
  | 0x107 => fmtA w (fun h o => .fcvt h o)
  | 0x108 => fmtA w (fun h o => .frcp h o)
  | 0x109 => fmtA w (fun h o => .frsq h o)
  | 0x10A => fmtA w (fun h o => .fexp2 h o)
  | 0x10B => fmtA w (fun h o => .flog2 h o)
  | 0x10C => fmtA w (fun h o => .fclass h o)
  | 0x10D => fmtA w (fun h o => .fscl h o)
  | 0x140 => fmtA w (fun h o => .xlane h o)
  | 0x141 => fmtA w (fun h o => .slide h o)
  | 0x142 => fmtA w (fun h o => .perm h o)
  | 0x143 => fmtA w (fun h o => .ptld h o)
  | 0x144 => fmtA w (fun h o => .vred h o)
  | 0x145 => fmtA w (fun h o => .vscan h o)
  | 0x146 => fmtA w (fun h o => .topk h o)
  | 0x147 => fmtA w (fun h o => .topkx h o)
  | 0x148 => fmtA w (fun h o => .pand h o)
  | 0x149 => fmtA w (fun h o => .por h o)
  | 0x14A => fmtA w (fun h o => .pxor h o)
  | 0x14B => fmtA w (fun h o => .pnot h o)
  | 0x160 => fmtM w (fun h o => .ldtld h o)
  | 0x161 => fmtA w (fun h o => if o.c == 1 then .cinitA h o else .cinit h o)
  | 0x162 => fmtA w (fun h o => .cdesc h o)
  | 0x163 => fmtA w (fun h o => .cnext h o)
  | 0x164 => fmtA w (fun h o => .cseek h o)
  | 0x165 => fmtA w (fun h o => .ccoit h o)
  | 0x166 => fmtA w (fun h o => .ccrd h o)
  | 0x167 => fmtA w (fun h o => .cpos h o)
  | 0x168 => fmtM w (fun h o => .cvld h o)
  | 0x169 => fmtM w (fun h o => .cvst h o)
  | 0x16A => fmtM w (fun h o => .capp h o)
  | 0x16B => fmtA w (fun h o => .cclose h o)
  | 0x16C => fmtA w (fun h o => .cheap h o)
  | 0x16D => fmtA w (fun h o => .cmov h o)
  | 0x16E => fmtA w (fun h o => .ctest h o)
  | 0x16F => fmtM w (fun h o => .cpref h o)
  | 0x180 => fmtM w (fun h o => .ld h o)
  | 0x181 => fmtM w (fun h o => .st h o)
  | 0x182 => fmtM w (fun h o => .lda h o)
  | 0x183 => fmtM w (fun h o => .stl h o)
  | 0x184 => fmtM w (fun h o => .ldt h o)
  | 0x185 => fmtM w (fun h o => .ldtt h o)
  | 0x186 => fmtM w (fun h o => .stt h o)
  | 0x187 => fmtM w (fun h o => .atom h o)
  | 0x188 => fmtM w (fun h o => .fence h o)
  | 0x189 => fmtM w (fun h o => .cinv h o)
  | 0x18A => fmtM w (fun h o => .pref h o)
  | 0x18B => fmtA w (fun h o => .cpy h o)
  | 0x18C => fmtA w (fun h o => .cpyt h o)
  | 0x18D => fmtA w (fun h o => .cpyg h o)
  | 0x18E => fmtA w (fun h o => .coll h o)
  | 0x1A0 => fmtA w (fun h o => .wbld h o)
  | 0x1A1 => fmtA w (fun h o => .wbinv h o)
  | 0x1A2 => fmtA w (fun h o => .azero h o)
  | 0x1A3 => fmtA w (fun h o => .mma h o)
  | 0x1A4 => fmtA w (fun h o => .mmas h o)
  | 0x1A5 => fmtI w (fun h o => .aprom h o)
  | 0x1A6 => fmtA w (fun h o => .adrn h o)
  | 0x1A7 => fmtA w (fun h o => .ard h o)
  | 0x1A8 => fmtA w (fun h o => .awr h o)
  | 0x1B0 => fmtW w (fun h o => .barv h o)
  | 0x1B1 => fmtW w (fun h o => .bwait h o)
  | 0x1B2 => fmtW w (fun h o => .bsync h o)
  | 0x1B3 => fmtW w (fun h o => .bdrop h o)
  | 0x1B4 => fmtW w (fun h o => .bexp h o)
  | 0x1B5 => fmtW w (fun h o => .cbar h o)
  | 0x1B6 => fmtW w (fun h o => .gbar h o)
  | 0x1B7 => fmtI w (fun h o => .dcset h o)
  | 0x1B8 => fmtI w (fun h o => .dcadd h o)
  | 0x1B9 => fmtW w (fun h o => .dcwait h o)
  | 0x1BA => fmtA w (fun h o => .time h o)
  | 0x1BB => fmtA w (fun h o => .cyc h o)
  | 0x1C0 => fmtA w (fun h o => .enq h o)
  | 0x1C1 => fmtA w (fun h o => if o.c == 1 then .deqHdr h o else if o.c == 2 then .deqArg h o else .deq h o)
  | 0x1C2 => fmtA w (fun h o => if o.c.toNat / 8 != 0 then .qcwRst h o else .qcwRd h o)
  | 0x1C3 => fmtA w (fun h o => .qpush h o)
  | 0x1C4 => fmtA w (fun h o => .qpop h o)
  | 0x1C5 => fmtA w (fun h o => .qpeek h o)
  | n => .error (.unallocated n)

/-- The instruction a word holds, before the checks of R103. -/
def decodeRaw (w : Word) : Except DecodeError Instr := decodeAs (opcOf w) w

/-- The instruction a word is: the opcode map and the static checks of R103. -/
def decode (w : Word) : Except DecodeError Instr :=
  match decodeRaw w with
  | .error e => .error e
  | .ok i =>
    match i.check with
    | none => .ok i
    | some e => .error (.illFormed e)

/-- The word that eight bytes hold, lowest address first (R5, R86). -/
def wordOfBytes (bs : List Byte) : Word := BitVec.ofNat 64 (bs.foldr (fun b acc => b.toNat + 256 * acc) 0)

/-- The bytes of a word, lowest address first. -/
def bytesOfWord (w : Word) : List Byte := (List.range 8).map (fun k => bitsOf w (8 * k) 8)

/-- The first instruction of a byte list, with the bytes after it. -/
def decodeBytes (bs : List Byte) : Except DecodeError (Instr × List Byte) :=
  if bs.length < 8 then .error .truncated
  else match decode (wordOfBytes (bs.take 8)) with
    | .ok i => .ok (i, bs.drop 8)
    | .error e => .error e

/-- STALL, WAIT, SIG, the opcode and the guard in their places (R86). -/
def packHead (opc : Nat) (h : Head) : Nat :=
  h.stall.toNat * 2 ^ 60 + h.wait.toNat * 2 ^ 48 + h.sig.toNat * 2 ^ 44 + opc % 512 * 2 ^ 35 + h.guard.toNat * 2 ^ 31

def packA (opc : Nat) (h : Head) (o : FmtA) : Word :=
  BitVec.ofNat 64 (packHead opc h + o.d.toNat * 2 ^ 25 + o.a.toNat * 2 ^ 19 + o.b.toNat * 2 ^ 13 + o.c.toNat * 2 ^ 7
    + o.bs.toNat * 2 ^ 6 + o.x.toNat * 2 ^ 5 + o.ty.toNat)

def packI (opc : Nat) (h : Head) (o : FmtI) : Word :=
  BitVec.ofNat 64 (packHead opc h + o.d.toNat * 2 ^ 25 + o.a.toNat * 2 ^ 19 + o.imm.toNat)

def packL (opc : Nat) (h : Head) (o : FmtL) : Word :=
  BitVec.ofNat 64 (packHead opc h + o.d.toNat * 2 ^ 25 + o.imm.toNat)

def packB (opc : Nat) (h : Head) (o : FmtB) : Word :=
  BitVec.ofNat 64 (packHead opc h + o.target.toNat * 2 ^ 15 + o.join.toNat)

def packM (opc : Nat) (h : Head) (o : FmtM) : Word :=
  BitVec.ofNat 64 (packHead opc h + o.d.toNat * 2 ^ 25 + o.a.toNat * 2 ^ 19 + o.b.toNat * 2 ^ 13 + o.ty.toNat * 2 ^ 8
    + o.scope.toNat * 2 ^ 5 + o.order.toNat * 2 ^ 3 + o.hint.toNat * 2 + o.space.toNat)

/-- Format S: bits 34:32 are zero; the guard of a well-formed one is zero. -/
def packS (opc : Nat) (h : Head) (o : FmtS) : Word :=
  BitVec.ofNat 64 (packHead opc h + o.imm.toNat)

def packW (opc : Nat) (h : Head) (o : FmtW) : Word :=
  BitVec.ofNat 64 (packHead opc h + o.d.toNat * 2 ^ 25 + o.obj.toNat * 2 ^ 20 + o.t.toNat * 2 ^ 16 + o.count.toNat)

/-- The word of an instruction; an event of the device has none. -/
def encode (i : Instr) : Option Word :=
  match i with
  | .nop h o => some (packA 0x001 h o)
  | .bra h o => some (packB 0x002 h o)
  | .brs h o => some (packB 0x003 h o)
  | .brc h o => some (packB 0x004 h o)
  | .jmpi h o => some (packA 0x005 h o)
  | .jmpiU h o => some (packA 0x005 h o)
  | .land h o => some (packS 0x006 h o)
  | .call h o => some (packL 0x007 h o)
  | .calli h o => some (packA 0x008 h o)
  | .ret h o => some (packA 0x009 h o)
  | .loop h o => some (packI 0x00A h o)
  | .loopx h o => some (packI 0x00B h o)
  | .yield h o => some (packL 0x00C h o)
  | .exit h o => some (packA 0x00D h o)
  | .trap h o => some (packL 0x00E h o)
  | .eret h o => some (packA 0x00F h o)
  | .halt h o => some (packA 0x010 h o)
  | .brk h o => some (packL 0x011 h o)
  | .sigck h o => some (packS 0x012 h o)
  | .rgne h o => some (packL 0x013 h o)
  | .rgnl h o => some (packA 0x014 h o)
  | .mark h o => some (packS 0x015 h o)
  | .waitf h o => some (packW 0x016 h o)
  | .vote h o => some (packA 0x017 h o)
  | .elect h o => some (packA 0x018 h o)
  | .widr h o => some (packA 0x019 h o)
  | .maskr h o => some (packA 0x01A h o)
  | .srd h o => some (packI 0x01B h o)
  | .swr h o => some (packI 0x01C h o)
  | .sadd h o => some (packA 0x040 h o)
  | .ssub h o => some (packA 0x041 h o)
  | .saddi h o => some (packI 0x042 h o)
  | .smul h o => some (packA 0x043 h o)
  | .smulh h o => some (packA 0x044 h o)
  | .sdiv h o => some (packA 0x045 h o)
  | .srem h o => some (packA 0x046 h o)
  | .sand h o => some (packA 0x047 h o)
  | .sor h o => some (packA 0x048 h o)
  | .sxor h o => some (packA 0x049 h o)
  | .sandi h o => some (packI 0x04A h o)
  | .sori h o => some (packI 0x04B h o)
  | .sshl h o => some (packA 0x04C h o)
  | .sshr h o => some (packA 0x04D h o)
  | .ssar h o => some (packA 0x04E h o)
  | .smin h o => some (packA 0x04F h o)
  | .smax h o => some (packA 0x050 h o)
  | .scmp h o => some (packA 0x051 h o)
  | .ssel h o => some (packA 0x052 h o)
  | .smov h o => some (packA 0x053 h o)
  | .sli h o => some (packL 0x054 h o)
  | .slih h o => some (packL 0x055 h o)
  | .sclz h o => some (packA 0x056 h o)
  | .spop h o => some (packA 0x057 h o)
  | .sbfx h o => some (packA 0x058 h o)
  | .sbfi h o => some (packA 0x059 h o)
  | .slea h o => some (packA 0x05A h o)
  | .sv2s h o => some (packA 0x05B h o)
  | .vadd h o => some (packA 0x080 h o)
  | .vsub h o => some (packA 0x081 h o)
  | .vaddi h o => some (packI 0x082 h o)
  | .vmul h o => some (packA 0x083 h o)
  | .vmulh h o => some (packA 0x084 h o)
  | .vmad h o => some (packA 0x085 h o)
  | .vdot2 h o => some (packA 0x086 h o)
  | .vdot4 h o => some (packA 0x087 h o)
  | .vabs h o => some (packA 0x088 h o)
  | .vneg h o => some (packA 0x089 h o)
  | .vmin h o => some (packA 0x08A h o)
  | .vmax h o => some (packA 0x08B h o)
  | .vand h o => some (packA 0x08C h o)
  | .vor h o => some (packA 0x08D h o)
  | .vxor h o => some (packA 0x08E h o)
  | .vnot h o => some (packA 0x08F h o)
  | .vshl h o => some (packA 0x090 h o)
  | .vshr h o => some (packA 0x091 h o)
  | .vsar h o => some (packA 0x092 h o)
  | .vrshr h o => some (packA 0x093 h o)
  | .vsat h o => some (packA 0x094 h o)
  | .vclz h o => some (packA 0x095 h o)
  | .vpop h o => some (packA 0x096 h o)
  | .vcmp h o => some (packA 0x097 h o)
  | .vsel h o => some (packA 0x098 h o)
  | .vmov h o => some (packA 0x099 h o)
  | .vbcst h o => some (packA 0x09A h o)
  | .vli h o => some (packL 0x09B h o)
  | .vpack h o => some (packA 0x09C h o)
  | .vunpk h o => some (packA 0x09D h o)
  | .viota h o => some (packA 0x09E h o)
  | .fadd h o => some (packA 0x100 h o)
  | .fsub h o => some (packA 0x101 h o)
  | .fmul h o => some (packA 0x102 h o)
  | .ffma h o => some (packA 0x103 h o)
  | .fmin h o => some (packA 0x104 h o)
  | .fmax h o => some (packA 0x105 h o)
  | .fcmp h o => some (packA 0x106 h o)
  | .fcvt h o => some (packA 0x107 h o)
  | .frcp h o => some (packA 0x108 h o)
  | .frsq h o => some (packA 0x109 h o)
  | .fexp2 h o => some (packA 0x10A h o)
  | .flog2 h o => some (packA 0x10B h o)
  | .fclass h o => some (packA 0x10C h o)
  | .fscl h o => some (packA 0x10D h o)
  | .xlane h o => some (packA 0x140 h o)
  | .slide h o => some (packA 0x141 h o)
  | .perm h o => some (packA 0x142 h o)
  | .ptld h o => some (packA 0x143 h o)
  | .vred h o => some (packA 0x144 h o)
  | .vscan h o => some (packA 0x145 h o)
  | .topk h o => some (packA 0x146 h o)
  | .topkx h o => some (packA 0x147 h o)
  | .pand h o => some (packA 0x148 h o)
  | .por h o => some (packA 0x149 h o)
  | .pxor h o => some (packA 0x14A h o)
  | .pnot h o => some (packA 0x14B h o)
  | .ldtld h o => some (packM 0x160 h o)
  | .cinit h o => some (packA 0x161 h o)
  | .cinitA h o => some (packA 0x161 h o)
  | .cdesc h o => some (packA 0x162 h o)
  | .cnext h o => some (packA 0x163 h o)
  | .cseek h o => some (packA 0x164 h o)
  | .ccoit h o => some (packA 0x165 h o)
  | .ccrd h o => some (packA 0x166 h o)
  | .cpos h o => some (packA 0x167 h o)
  | .cvld h o => some (packM 0x168 h o)
  | .cvst h o => some (packM 0x169 h o)
  | .capp h o => some (packM 0x16A h o)
  | .cclose h o => some (packA 0x16B h o)
  | .cheap h o => some (packA 0x16C h o)
  | .cmov h o => some (packA 0x16D h o)
  | .ctest h o => some (packA 0x16E h o)
  | .cpref h o => some (packM 0x16F h o)
  | .ld h o => some (packM 0x180 h o)
  | .st h o => some (packM 0x181 h o)
  | .lda h o => some (packM 0x182 h o)
  | .stl h o => some (packM 0x183 h o)
  | .ldt h o => some (packM 0x184 h o)
  | .ldtt h o => some (packM 0x185 h o)
  | .stt h o => some (packM 0x186 h o)
  | .atom h o => some (packM 0x187 h o)
  | .fence h o => some (packM 0x188 h o)
  | .cinv h o => some (packM 0x189 h o)
  | .pref h o => some (packM 0x18A h o)
  | .cpy h o => some (packA 0x18B h o)
  | .cpyt h o => some (packA 0x18C h o)
  | .cpyg h o => some (packA 0x18D h o)
  | .coll h o => some (packA 0x18E h o)
  | .wbld h o => some (packA 0x1A0 h o)
  | .wbinv h o => some (packA 0x1A1 h o)
  | .azero h o => some (packA 0x1A2 h o)
  | .mma h o => some (packA 0x1A3 h o)
  | .mmas h o => some (packA 0x1A4 h o)
  | .aprom h o => some (packI 0x1A5 h o)
  | .adrn h o => some (packA 0x1A6 h o)
  | .ard h o => some (packA 0x1A7 h o)
  | .awr h o => some (packA 0x1A8 h o)
  | .barv h o => some (packW 0x1B0 h o)
  | .bwait h o => some (packW 0x1B1 h o)
  | .bsync h o => some (packW 0x1B2 h o)
  | .bdrop h o => some (packW 0x1B3 h o)
  | .bexp h o => some (packW 0x1B4 h o)
  | .cbar h o => some (packW 0x1B5 h o)
  | .gbar h o => some (packW 0x1B6 h o)
  | .dcset h o => some (packI 0x1B7 h o)
  | .dcadd h o => some (packI 0x1B8 h o)
  | .dcwait h o => some (packW 0x1B9 h o)
  | .time h o => some (packA 0x1BA h o)
  | .cyc h o => some (packA 0x1BB h o)
  | .enq h o => some (packA 0x1C0 h o)
  | .deq h o => some (packA 0x1C1 h o)
  | .deqHdr h o => some (packA 0x1C1 h o)
  | .deqArg h o => some (packA 0x1C1 h o)
  | .qcwRd h o => some (packA 0x1C2 h o)
  | .qcwRst h o => some (packA 0x1C2 h o)
  | .qpush h o => some (packA 0x1C3 h o)
  | .qpop h o => some (packA 0x1C4 h o)
  | .qpeek h o => some (packA 0x1C5 h o)
  | .debugStop ..
  | .instructionCompletion ..
  | .faultRaise ..
  | .deferredRecordWrite ..
  | .waitTimeout ..
  | .classPromotion ..
  | .hostEnqueue ..
  | .dispatchStep ..
  | .startTimeReached ..
  | .taskCompletion ..
  | .steal ..
  | .copyBlock ..
  | .collMatch ..
  | .collCompletion ..
  | .fifoHeadLeave ..
  | .mmaChunk ..
  | .drainExecute ..
  | .wbldCompletion ..
  | .groupSave ..
  | .kill ..
  | .preempt ..
  | .resume ..
  | .resolve ..
  | .invalidateAll ..
  | .invalidateTenant ..
  | .invalidatePages ..
  | .taskQueueStateWrite ..
  | .contextEntryWrite ..
  | .gridMapWrite ..
  | .importWindowWrite ..
  | .vfBindingWrite ..
  | .hostRegisterWrite ..
  | .spinthWrite ..
  | .aelogWrite ..
  | .bkctlWrite ..
  | .ssctlWrite ..
  | .spcWrite ..
  | .stallSample ..
  | .hostMemoryRead ..
  | .hostMemoryWrite ..
  | .atsInvalidation ..
  | .spdmGetVersion ..
  | .spdmGetCapabilities ..
  | .spdmNegotiateAlgorithms ..
  | .spdmGetDigests ..
  | .spdmGetCertificate ..
  | .spdmChallenge ..
  | .spdmGetMeasurements ..
  | .flitReceive ..
  | .linkRetrain ..
  | .laneRotation ..
  | .remoteRequest ..
  | .pathDown ..
  | .gridArrivalMessage ..
  | .gridCompletionMessage ..
  | .sensorPeriod ..
  | .relockBegin ..
  | .relockEnd ..
  | .ptpMessage ..
  | .ppsPulse ..
  | .ptpLoss ..
  | .epoch ..
  | .errorDetection ..
  | .errorWindowExpiry ..
  | .ueExpiry ..
  | .lastingFaultAction ..
  | .rowSpareEffect ..
  | .fatalCondition ..
  | .freezeReceipt ..
  | .capsuleAssembly ..
  | .powerOnReset ..
  | .warmReset ..
  | .mailboxId ..
  | .fwload ..
  | .cert ..
  | .step ..
  | .limitsRead ..
  | .limitsSet ..
  | .stateActive ..
  | .stateQuiesce ..
  | .stateStandby ..
  | .stateWarmReset ..
  | .svnset ..
  | .mailboxTime ..
  | .errors ..
  | .clear ..
  | .caplist ..
  | .capget ..
  | .capack ..
  | .capfreeze ..
  | .coreCycle ..
  | .linkRetrainComplete ..
  | .powerLoss ..
    => none

/-- What the decoder reads from an instruction whose bits, numbered as spec/opcode_table.json numbers them, are `w`. -/
def decodeTableWord (nbits w : Nat) : Option Instr :=
  match decodeBytes (bytesOfWord (BitVec.ofNat 64 (w % 2 ^ nbits))) with
  | .ok (i, _) => some i
  | .error _ => none

end Sys2Proof
end

