-- ==== Sys2Proof/Config.lean ====
section
/-! DEFINITION. What the spec leaves to the part or leaves open, as constants with no body: nothing can evaluate them, and a
theorem holds whatever they are. Each is named in notes/assumptions. -/

namespace Sys2Proof.Config

/-- An open choice between two outcomes: choice `salt` of step `seq` (log 3). -/
opaque pick : Nat → Nat → Bool

/-- A value that the spec leaves open: at step `seq`, in a lane (08 R176; log 131). -/
opaque freeWord : Nat → Nat → Word

/-- A byte that the host answers: request `seq`, address (log 4). -/
opaque hostByte : Nat → Nat → Byte

/-- Whether the host answers a request with an error (log 4). -/
opaque hostFails : Nat → Nat → Bool

/-- Whether the host has enabled ATS on a function (18 R405; log 4). -/
opaque atsOn : Nat → Bool

/-- A byte that another device answers: request `seq`, device, address (log 4). -/
opaque remoteByte : Nat → Nat → Nat → Byte

/-- A payload byte of a flit sent at step `seq`; byte 240 gives its length (18 R410; log 4). -/
opaque flitByte : Nat → Nat → Byte

/-- Whether a skid slot of a port's channel is freed in a nanosecond (18 R412; log 3). -/
opaque skidFrees : Nat → Nat → Bool

/-- Whether another device's answer arrives uncorrectable or is refused (log 4). -/
opaque remoteFails : Nat → Nat → Nat → Bool

/-- PROD of the ID register: true for a 960-M (03 R60; log 5). -/
opaque isM : Bool

/-- STEP of the ID register (03 R60; log 5). -/
opaque stepping : BitVec 8

/-- Serial number; the certificate chain, a byte of it and its length, of the serial number and the firmware measurement 0 whose identity
key it binds (19 R424, R430; log 5). -/
opaque serialByte : Nat → Byte
opaque chainLength : List Byte → List Byte → Nat
opaque chainByte : List Byte → List Byte → Nat → Byte

/-- Whether a signature of 128 header bytes verifies under the signing key whose digest the fuses hold: ECDSA P-384, and LMS (19 R421,
R422; log 5). -/
opaque ecdsaVerifies : List Byte → List Byte → Bool
opaque lmsVerifies : List Byte → List Byte → Bool

/-- Whether what manufacture left in a flash slot passes R422 under a fused minimum SVN (19 R422; log 5). -/
opaque factoryPasses : Nat → Nat → Bool

/-- Whether the step of reset that is under way is over in a nanosecond, and whether the PF's configuration space is ready (19 R420;
log 3). -/
opaque bootDone : Nat → Bool
opaque cfgReady : Nat → Bool

/-- Fuse contents, with a minimum SVN, as they enter measurement 1, and retired cores as they do (19 R422; log 5). -/
opaque fuseBytes : Nat → List Byte
opaque retireBytes : List Nat → List Byte

/-- The digest of the firmware image of manufacture, byte by byte (19 R422; log 5). -/
opaque factoryDigest : Nat → Byte

/-- The rate in parts per billion that the discipline of reference time chooses at a step (16 R370; log 3). -/
opaque ptpRate : Nat → Int

/-- A byte of an ECDSA P-384 signature, under the device identity key of a firmware (its measurement 0), of a message: signing `n`, byte
(14 R329, 18 R408, 19 R424; log 5). -/
opaque ecdsaByte : List Byte → List Byte → Nat → Nat → Byte

/-- A byte of what a leaf of the device's LMS tree signs a message with: leaf, message, byte (14 R329; log 5). -/
opaque lmsByte : Nat → List Byte → Nat → Byte

/-- Commands that an engine's queue holds beside one (01 R11; log 6). -/
opaque copyQueue : Nat

/-- The digest of a context entry and its member list (18 R416; log 6). -/
opaque ctxDigest : List Nat → Word

/-- How many events the recorder of a core writes from its input buffer to its ring in a cycle (14 R317; log 75). -/
opaque ringWrites : Nat → Nat

/-- Whether a cached copy has been evicted: asked at step `seq` of line `n` (10 R240, R241; log 7). -/
opaque evicted : Nat → Nat → Bool

/-- Which line a full cache gives up: asked at step `seq` of cache `n` (10 R240, R241, 08 R177; log 7). -/
opaque victim : Nat → Nat → Nat

/-- Whether a mirror copy authenticates at the boot of step `seq` (14 R331; log 5). -/
opaque mirrorGood : Nat → Nat → Bool

/-- Whether a retention slot passes its check at the boot of step `seq` (14 R331; log 5). -/
opaque slotGood : Nat → Nat → Bool

/-- Lanes of a Dravim link, its shadow lane among them (01 R7, 18 R413; log 5). -/
opaque dravimLanes : Nat

/-- Reference time that the controller's standby clock holds at a power-on (16 R370; log 5). -/
opaque standbyClock : Nat → Nat

/-- Bytes of an SPDM answer beyond what the spec fixes (18 R408; log 5). -/
opaque spdmByte : Nat → Nat → Byte

/-- Length of an SPDM answer (18 R408; log 5). -/
opaque spdmLength : Nat → Nat

/-- A byte of the capsule mirror in the DDR tier, encrypted under a key that never leaves the root controller: the serial numbers of the
stores it holds, address (14 R330; log 79). -/
opaque mirrorByte : List Nat → Nat → Byte

/-- The bytes that a store's 48 random bytes default to when none are given (14 R328; log 5). -/
opaque saltByte : Nat → Byte

/-- The capacity of the smallest installed RDIMM, in bytes, as a power-on finds it (10 R231; log 8). -/
opaque rdimmBytes : Nat

end Sys2Proof.Config
end

