-- ==== Sys2Proof/Machine/Tbl.lean ====
section
/-! DEFINITION. Sparse tables: the plain data in which the model holds register files, memories and tables.
A table lists (index, value) pairs with rising indexes and no entry equal to what an unlisted index reads as. -/

namespace Sys2Proof.Machine

/-- A sparse table. -/
abbrev Tbl (α : Type) := List (Nat × α)

/-- What index `i` reads as; an unlisted index reads as `d`. -/
def Tbl.get {α : Type} (d : α) : Tbl α → Nat → α
  | [], _ => d
  | (k, v) :: t, i => if i = k then v else Tbl.get d t i

/-- Entry `(i, v)` put in its place, without regard to the default. -/
def Tbl.ins {α : Type} (i : Nat) (v : α) : Tbl α → Tbl α
  | [] => [(i, v)]
  | (k, w) :: t =>
    if i < k then (i, v) :: (k, w) :: t
    else if i = k then (i, v) :: t
    else (k, w) :: Tbl.ins i v t

/-- No entry for `i` is left. -/
def Tbl.erase {α : Type} (i : Nat) (t : Tbl α) : Tbl α := t.filter (fun e => e.1 ≠ i)

/-- `v` written at index `i`; writing the default removes the entry. -/
def Tbl.set {α : Type} [DecidableEq α] (d : α) (t : Tbl α) (i : Nat) (v : α) : Tbl α :=
  if v = d then Tbl.erase i t else Tbl.ins i v t

/-- The entry at `i` changed by `f`. -/
def Tbl.upd {α : Type} [DecidableEq α] (d : α) (t : Tbl α) (i : Nat) (f : α → α) : Tbl α :=
  Tbl.set d t i (f (Tbl.get d t i))

/-- Several entries written in list order. -/
def Tbl.setMany {α : Type} [DecidableEq α] (d : α) (t : Tbl α) : List (Nat × α) → Tbl α
  | [] => t
  | e :: es => Tbl.setMany d (Tbl.set d t e.1 e.2) es

/-- Every index from `lo` below `hi` reads as the default again. -/
def Tbl.clear {α : Type} (lo hi : Nat) (t : Tbl α) : Tbl α :=
  t.filter (fun e => e.1 < lo ∨ hi ≤ e.1)

/-- The canonical form: indexes strictly rising from above `lo`, no listed default. -/
def Tbl.wfFrom {α : Type} [DecidableEq α] (d : α) : Nat → Tbl α → Bool
  | _, [] => true
  | lo, (k, v) :: t => decide (lo ≤ k) && decide (v ≠ d) && Tbl.wfFrom d (k + 1) t

/-- The canonical form of a whole table. -/
def Tbl.wf {α : Type} [DecidableEq α] (d : α) (t : Tbl α) : Bool := Tbl.wfFrom d 0 t

end Sys2Proof.Machine
end

