-- ==== Sys2Proof/Machine/TeamState.lean ====
section
/-! DEFINITION. The state of a lane, a team and a gatherer (03 R39 to R58, 17 R396). Plain data. -/

namespace Sys2Proof.Machine

/-- One lane of one vector register with its poison bit (R41, R42). -/
structure VCell where
  val : Word := 0
  pz : Bool := false
deriving DecidableEq, Repr

/-- One cursor register of one lane (R44), its hidden fibre field FIB (R185) and its poison mark (R386). -/
structure Cursor where
  ldti : BitVec 8 := 0
  kind : BitVec 3 := 0
  done : Bool := false
  app : Bool := false
  valid : Bool := false
  pos : Word32 := 0
  ub : Word32 := 0
  coord : Word32 := 0
  fib : Word32 := 0
  pz : Bool := false
deriving DecidableEq, Repr

/-- A hierarchical active mask: section words (lane L at bit L) and the summary word (R27). -/
structure Mask where
  sect : LaneBits := 0
  summ : Word32 := 0
deriving DecidableEq, Repr

/-- An entry of the reconvergence stack (R48); `tgt` is the backward target its path remembers (R35). -/
structure StackEntry where
  jpc : Word := 0
  ppc : Word := 0
  mask : Mask := {}
  tgt : Option Word := none
deriving DecidableEq, Repr

/-- A live loop register (R49). -/
structure LoopReg where
  start : Word := 0
  last : Word := 0
  count : Word32 := 0
deriving DecidableEq, Repr

/-- A completion flag (R50). -/
structure Flag where
  blame : Word := 0
  count : Nat := 0
deriving DecidableEq, Repr

/-- What a WAITING team waits for, other than the resolution of its record (R26, R130, R310, R356, R368). -/
inductive WaitKind where
  | flag (k n : Nat)
  | named (b : Nat) (par : Bool)
  | cluster (k : Nat) (par : Bool)
  | grid (k : Nat) (par : Bool)
  | counter (i : Nat)
  | pop (peek : Bool) (q d dest : Nat) (lanes : LaneBits)
deriving DecidableEq, Repr

/-- A wait: its kind, the status destination, the deadline in reference time (none: no timeout), the order in which it
began, the PC of the wait instruction and its completion. -/
structure Wait where
  kind : WaitKind
  dest : Nat := 0
  deadline : Option Nat := none
  since : Nat := 0
  pc : Word := 0
  fly : Nat := 0
deriving DecidableEq, Repr

/-- A fault about to be recorded, or one met in the fault window (R379 to R381): code, reason, address, detail, the lanes
that did not commit, the continuation page entries, status bits that the instruction sets although it faults (R175), and the pages whose
translation failed (R341). -/
structure FaultReq where
  code : Nat
  reason : Nat := 0
  addr : Word := 0
  detail : BitVec 128 := 0
  rpm : LaneBits := 0
  pages : List (BitVec 128) := []
  ovf : Bool := false
  word : Word := 0
  stat : Word32 := 0
  drops : List Nat := []
deriving DecidableEq, Repr

/-- Which register a write names. -/
inductive RegName where
  | s (r : Nat)
  | v (r : Nat)
  | p (r : Nat)
  | c (r : Nat)
deriving DecidableEq, Repr

/-- The old contents a hazard keeps. -/
inductive OldReg where
  | s (w : Word)
  | v (t : Tbl VCell)
  | p (m : LaneBits)
  | c (t : Tbl Cursor)
deriving DecidableEq, Repr

/-- A write whose result is not yet promised to be read (R90, R91): until core cycle `due`, or until completion `fly`,
a read of `reg` in `lanes` gives what was there before or what was written, `put`; `old` is the register as the write found it. `due` is
the cycle of the last section of a sweep over the sections of `summ`; an earlier section's result is readable as many cycles earlier as
sections came after it. -/
structure Hazard where
  reg : RegName
  lanes : LaneBits := 0
  old : OldReg
  put : OldReg
  due : Nat := 0
  fly : Option Nat := none
  summ : Word32 := 0
deriving DecidableEq, Repr

/-- A byte of memory as a translation gives it: at a physical address here, or on device `dev` of the domain (R230, R414). -/
structure PByte where
  dev : Option Nat := none
  pa : Nat
deriving DecidableEq, Repr

/-- An element of a scaled tile (R247): format code, device, payload and entry addresses, element number. -/
structure ElemAt where
  code : Nat
  dev : Option Nat := none
  pay : Nat
  ent : Nat
  n : Nat
deriving DecidableEq, Repr

/-- What one lane does at its place (R276 to R281); `sx`: the width to sign-extend from, for a gatherer (R308), else 0. -/
inductive LaneAct where
  | load (reg sx : Nat)
  | scaled (reg ty : Nat) (els : List ElemAt)
  | store (data : List Byte)
  | atom (reg op ty : Nat) (x y : Word)
deriving DecidableEq, Repr

/-- One lane's access after its checks: its bytes, the ordering kind (0 SO, 1 RC, 2 UN) and the hint. -/
structure LaneOp where
  lane : Nat
  bytes : List PByte
  kind : Nat := 1
  hint : Nat := 0
  act : LaneAct
deriving DecidableEq, Repr

/-- An instruction issued and not complete (R50, R89): its flag (0 none), the core cycle at which it completes (none: by
INSTRUCTION_COMPLETION), the status bits set then (R55), whether it has a fault window (R380), whether it is a memory or
cursor access (R282), whether it is a fence, and accesses held behind the range guard (R246) with the range-guard entries that hold
them (core, entry, core and number of its copy), whether they are a release, and the scope, plus 1, at which they acquire once they
are performed (R258, R262; for a fence, at its completion). `summ`: the sections whose results come one by one (R28, R90). `clr`: a
replay, whose completion clears RPM (R54). -/
structure InFlight where
  id : Nat
  flag : Nat := 0
  due : Option Nat := none
  stat : Word32 := 0
  win : Bool := false
  acc : Bool := false
  curs : Bool := false
  ldt : Bool := false
  fence : Bool := false
  held : List LaneOp := []
  guards : List (Nat × Nat × Nat × Nat) := []
  rel : Bool := false
  acq : Nat := 0
  summ : Word32 := 0
  clr : Bool := false
deriving DecidableEq, Repr

/-- What a team is: its group, references and launch parameters (R396, R298). -/
structure TeamId where
  grp : Nat := 0
  gref : Word := 0
  tag : Nat := 0
  gidx : Nat := 0
  tidx : Nat := 0
  role : Nat := 0
  budget : Nat := 0
  tenant : Nat := 0
  lanes : Nat := 32
  rb : Nat := 0
  lb : Nat := 0
  cls : Nat := 3
  prv : Bool := false
  yb : Nat := 4096
  start : Nat := 0
deriving DecidableEq, Repr

/-- The running path (R34, R35, R46 to R49): PC, mask, stack (top first), loops (innermost first), spin count and target. -/
structure TeamPath where
  pc : Word := 0
  mask : Mask := {}
  stack : List StackEntry := []
  loops : List LoopReg := []
  spin : Nat := 0
  tgt : Option Word := none
deriving DecidableEq, Repr

/-- The registers (R41 to R55). Vector cell key 1024 r + lane; cursor key 8 lane + c; p0 and s0 are never listed. `edge`: the status
bits that completions of this core cycle have set (R40). -/
structure TeamRegs where
  s : Tbl Word := []
  v : Tbl VCell := []
  p : Tbl LaneBits := []
  c : Tbl Cursor := []
  flags : Tbl Flag := []
  regions : List (BitVec 16) := []
  sig : Word32 := 0
  ycnt : Nat := 0
  rpm : LaneBits := 0
  tstat : Word32 := 0
  edge : Word32 := 0
deriving DecidableEq, Repr

/-- The fault state of a team (R381, R382, R396) and its debug stop (R124, R350). `unissued`: the instruction at FPC has not
issued; `atIssue`: the faulting instruction would set the PC itself, so its place is settled by the replay or the resolution; `skip`: the
next join check is not made (R389). `word`: the faulting instruction; `grant`: a GRANT to be used before its replay (R197). -/
structure TeamFault where
  pf : Bool := false
  fpc : Word := 0
  handle : Word32 := 0
  hdie : Nat := 0
  code : Nat := 0
  atIssue : Bool := true
  replay : Bool := false
  unissued : Bool := false
  win : Option FaultReq := none
  winPc : Word := 0
  winFly : Nat := 0
  dbg : Option Nat := none
  skip : Bool := false
  word : Word := 0
  grant : Option Nat := none
deriving DecidableEq, Repr

/-- Issue bookkeeping (R29 to R33). `ref`: the core cycle from which STALL counts. -/
structure TeamSched where
  ref : Nat := 0
  lastIssue : Option Nat := none
  bypass : Nat := 0
  readyFor : Nat := 0
  promo : Nat := 0
deriving DecidableEq, Repr

/-- A team slot (R25, R396). `arrd`: the wait at PC has arrived, in phase `arrPh` (R359). State codes: 0 FREE, 1 READY, 2 WAITING,
3 YIELDED, 4 HALTED, 5 DONE. `rewait`: the instruction at PC is a wait that issues again after a restore or an interrupting fault (R50,
R359). -/
structure Team where
  st : Nat := 0
  park : Bool := false
  live : Nat := 0
  acc : Bool := false
  arrd : Bool := false
  arrPh : Bool := false
  rewait : Bool := false
  id : TeamId := {}
  path : TeamPath := {}
  regs : TeamRegs := {}
  flt : TeamFault := {}
  sched : TeamSched := {}
  haz : List Hazard := []
  fly : List InFlight := []
  nextId : Nat := 1
  wait : Option Wait := none
deriving DecidableEq, Repr

/-- A gatherer (R58, R308): bound to a team of a group; a single lane. `halt`: stopped at a pending record. -/
structure Gatherer where
  bound : Bool := false
  ended : Bool := false
  halt : Bool := false
  slot : Nat := 0
  grp : Nat := 0
  pc : Word := 0
  s : Tbl Word := []
  c : Tbl Cursor := []
  loops : List LoopReg := []
  handle : Word32 := 0
  word : Word := 0
  grant : Option Nat := none
deriving DecidableEq, Repr

end Sys2Proof.Machine
end

