-- ==== Sys2Proof/Machine/UnitState.lean ====
section
/-! DEFINITION. The state of a core, a C-die, the I/O dies and the package outside the teams. Plain data. -/

namespace Sys2Proof.Machine

/-- A resident group (R24): its launch record (header latch, R303), reference, teams, allocation, queues and gatherers. -/
structure Group where
  gref : Word := 0
  tag : Nat := 0
  gidx : Nat := 0
  hdr : BitVec 512 := 0
  tenant : Nat := 0
  slots : List Nat := []
  base : Nat := 0
  size : Nat := 0
  queues : Tbl Word := []
  nbar : Nat := 0
  bbase : Nat := 0
  gaths : List Nat := []
  mtx : Bool := false
  cluster : Option Nat := none
  saving : Bool := false
deriving DecidableEq, Repr

/-- An accumulator tile (R56, R201): promotion images and FP26 partials keyed 64 i + j, poison marks, P and CNT. -/
structure Tile where
  img : Tbl Word32 := []
  part : Tbl (BitVec 26) := []
  pz : Tbl Bool := []
  p : Nat := 8
  cnt : Nat := 0
deriving DecidableEq, Repr

/-- A weight-buffer slot (R57, R200): WBSTAT bits, the stream as loaded, format, bands, poisoned elements (64 k + j), and the
operands of its last load (R393). -/
structure WSlot where
  load : Bool := false
  valid : Bool := false
  spar : Nat := 0
  fmt : Nat := 0
  nb : Nat := 0
  data : Tbl Byte := []
  pz : Tbl Bool := []
  opA : Word := 0
  opB : Word := 0
  opC : Word := 0
deriving DecidableEq, Repr

/-- Who issued a command: team slot, group reference, tenant, the flag completion and, for a drain's record, the instruction word. -/
structure Issuer where
  slot : Nat := 0
  grp : Nat := 0
  gref : Word := 0
  tag : Nat := 0
  tenant : Nat := 0
  fly : Nat := 0
  pc : Word := 0
  cls : Nat := 3
  word : Word := 0
deriving DecidableEq, Repr

/-- The matrix commands that the crossing FIFO carries (R203, R206); `none_`: no lane was served. -/
inductive MatOp where
  | wbld (w : Nat) (a b c : Word)
  | wbinv (w : Nat)
  | azero (t : Nat)
  | mma (clear tr : Bool) (code t w : Nat) (a c : Word)
  | aprom (t p : Nat)
  | adrn (z : Bool) (t : Nat) (a : Word) (d : BitVec 512)
  | ard (t v : Nat) (row : Nat) (lanes : LaneBits)
  | awr (t : Nat) (row : Nat) (cells : List (Nat × Word))
  | none_
deriving DecidableEq, Repr

/-- An entry of the crossing FIFO or a command that left it. -/
structure MatCmd where
  op : MatOp
  iss : Issuer
deriving DecidableEq, Repr

/-- An MMA in the array (R204, R215): its command, the records of operand A and the slot as fetched, the chunks performed, the
status bits so far. -/
structure MmaRun where
  cmd : MatCmd
  recs : List (Byte × Bool) := []
  slot : WSlot := {}
  chunks : Nat := 0
  stat : Nat := 0
deriving DecidableEq, Repr

/-- The drain in the array: granule to write next, values after the epilogue, pending record handle. -/
structure DrainRun where
  cmd : MatCmd
  g : Nat := 0
  ys : List Nat := []
  stat : Nat := 0
  pend : Bool := false
deriving DecidableEq, Repr

/-- A range-guard entry (R245). -/
structure Guard where
  v : Bool := false
  bar : Nat := 0
  src : Nat := 0
  last : Nat := 0
  base : Nat := 0
  copy : Nat := 0
deriving DecidableEq, Repr

/-- A copy or collective command held by the copy engine (R286 to R292): kind 0 CPY, 1 CPYT, 2 CPYG, 3 COLL; operands, K and .nb;
the descriptors read at issue; bytes in all and performed; the range-guard entry; the pending record. `srcBuf` and `dstBuf`: parts of
a tile record that reach across blocks (R287). COLL: operation, type, .nrm, the leaves its checks used, its collective engine (R7, R416)
and the order in which it issued (R295). -/
structure Copy where
  id : Nat := 0
  iss : Issuer := {}
  kind : Nat := 0
  sd : Word := 0
  sa : Word := 0
  sb : Word := 0
  k : Nat := 0
  nb : Bool := false
  d1 : BitVec 512 := 0
  d2 : BitVec 512 := 0
  total : Nat := 0
  prog : Nat := 0
  srcBuf : List (Byte × Bool) := []
  dstBuf : List (Byte × Bool) := []
  op : Nat := 0
  ty : Nat := 0
  nrm : Bool := false
  leaves : List (Nat × Nat) := []
  gcore : Option Nat := none
  gent : Option Nat := none
  pend : Bool := false
  handle : Word32 := 0
  hdie : Nat := 0
  matched : Bool := false
  since : Nat := 0
  eng : Nat := 0
deriving DecidableEq, Repr

/-- A named, cluster or grid barrier (R352, R362): arrivals are named by a key (team slot; group and team index in the task). `last`: the count of the phase
that completed last; `who`: the slot of the team that changed it last (for the events of R319). -/
structure Bar where
  arrm : List Nat := []
  stat : Nat := 0
  phase : Bool := false
  count : Nat := 0
  arr : Nat := 0
  drop : Nat := 0
  exp : Nat := 0
  last : Nat := 0
  who : Nat := 0
deriving DecidableEq, Repr

/-- A level descriptor table entry (R172). -/
structure Ldt where
  img : BitVec 512 := 0
  lv : Bool := false
  hv : Bool := false
  heap : Nat := 0
  hold : Nat := 0
deriving DecidableEq, Repr

/-- A permute pattern table entry (R343), with the core cycle from which a PERM may name it after its PTLD, and the one from which
a PTLD may after the sweep of a PERM (R164). -/
structure Pat where
  img : BitVec 512 := 0
  lv : Bool := false
  hold : Nat := 0
  fresh : Nat := 0
  swept : Nat := 0
deriving DecidableEq, Repr

/-- A breakpoint comparator (R349). -/
structure Bkpt where
  pc : Word := 0
  sel : Word := 0
  val : Word := 0
  ctl : Word := 0
deriving DecidableEq, Repr

/-- A translation held by a TLB (R341): tenant, first page, pages, and the leaf with its address. -/
structure TlbEntry where
  tenant : Nat := 0
  vpn : Nat := 0
  pages : Nat := 1
  leaf : BitVec 128 := 0
deriving DecidableEq, Repr

/-- A windowed error counter (R376); `times` are the reference times of the counted uncorrectable errors; `row` that of the last error;
`rows` those with a spare that has not taken effect (R390). -/
structure ErrCnt where
  ce : Nat := 0
  ue : Nat := 0
  last : Bool := false
  times : List Nat := []
  row : Nat := 0
  rows : List Nat := []
deriving DecidableEq, Repr

/-- A stall sample (R375). -/
structure Sample where
  spc : Word := 0
  sbl : Word := 0
  sinf : Word := 0
deriving DecidableEq, Repr

/-- A cached line (R240, R241, R177): its bytes as filled, and the ordering kind or entry tag. -/
structure Line where
  data : List Byte := []
  tag : Nat := 0
  pages : Nat := 1
  pz : Bool := false
deriving DecidableEq, Repr

/-- A trace record of MARK (R129): its imm32, the team's identifiers (group reference and slot, log 33), and the top two region
identifiers (R51). -/
structure TraceRec where
  imm : Nat := 0
  gref : Word := 0
  slot : Nat := 0
  rtop : Nat := 0
  rnext : Nat := 0
deriving DecidableEq, Repr

/-- The event recorder of a core (R315 to R318): ring slots as 128-bit events, input buffer, control word, damaged slots. At
reset slot 0 holds the EPOCH event of the release (R320). `took`: events accepted in this core cycle, at most two; `late`: events that
came beyond them, oldest first, with whether they are of class P; `held`: class-P events that wait for room, oldest first (R317).
`marks`: what MARK wrote (R129). -/
structure Recorder where
  ring : Tbl (BitVec 128) := [(0, 0x483F_C000_0000_0000_0000_0000_0000_0000)]
  bad : Tbl Bool := []
  buf : List (BitVec 128) := []
  took : Nat := 0
  late : List (BitVec 128 × Bool) := []
  held : List (BitVec 128) := []
  wptr : Nat := 1
  wrap : Nat := 0
  drop : Nat := 0
  frz : Bool := false
  miss : Bool := false
  trace : Bool := false
  marks : List TraceRec := []
deriving DecidableEq, Repr

/-- The tables and caches of a core. -/
structure CoreTabs where
  ldt : Tbl Ldt := []
  pats : Tbl Pat := []
  bk : Tbl Bkpt := []
  guard : Tbl Guard := []
  bars : Tbl Bar := []
  l1 : Tbl Line := []
  icache : Tbl Line := []
  meta_ : Tbl Line := []
  tlb : List TlbEntry := []
deriving DecidableEq, Repr

/-- The matrix state of a core (R200). `late`: completions and their status bits that fell in a relock, in the order of their effects;
the first core cycle after it applies them (R205). -/
structure CoreMat where
  tiles : Tbl Tile := []
  slots : Tbl WSlot := []
  fifo : List MatCmd := []
  loads : List MatCmd := []
  mmas : List MmaRun := []
  drain : Option DrainRun := none
  holder : Option Nat := none
  aelog : Word := 0
  late : List (Issuer × Nat) := []
deriving DecidableEq, Repr

/-- Counters and control registers of a core. -/
structure CoreCtl where
  spinth : Nat := 64
  errwin : Nat := 10000
  winStart : Nat := 0
  errs : Tbl ErrCnt := []
  pcsel : Tbl Word := []
  pcval : Tbl Word := []
  ssen : Bool := false
  ssper : Nat := 4096
  sscnt : Nat := 0
  ssteam : Nat := 0
  ssslot : Nat := 0
  samples : Tbl Sample := []
  issued : List Nat := []
  retired : Bool := false
  spares : Tbl Nat := []
  stopped : Bool := false
deriving DecidableEq, Repr

/-- A core (R10). Busy targets: 0 scalar, 1 and 2 vector pipes, 3 memory pipe, 4 cursor port, 5 command port. -/
structure Core where
  teams : Tbl Team := []
  groups : Tbl Group := []
  gaths : Tbl Gatherer := []
  mat : CoreMat := {}
  copies : List Copy := []
  tabs : CoreTabs := {}
  ctl : CoreCtl := {}
  rcd : Recorder := {}
  busy : Tbl Nat := []
  busyFor : Tbl Nat := []
  nextCopy : Nat := 1
deriving DecidableEq, Repr

/-- A task-queue state word (R297) with the enqueue time of each record held (R306). -/
structure TaskQueue where
  base : Nat := 0
  szlog : Nat := 0
  tenant : Nat := 0
  cls : Nat := 3
  prv : Bool := false
  pull : Bool := false
  en : Bool := false
  tail : Word32 := 0
  head : Word32 := 0
  times : Tbl Nat := []
deriving DecidableEq, Repr

/-- What an active task of a die still has to place: a range of group indexes, or saved images (R304, R306, R394). -/
structure Active where
  tag : Nat := 0
  lo : Nat := 0
  hi : Nat := 0
  images : List Nat := []
  taken : Nat := 0
deriving DecidableEq, Repr

/-- A record waiting for a ring slot (R313): the words without its handle, and who stays stopped for it. -/
structure PendRec where
  words : List (BitVec 512) := []
  defer : Bool := false
  who : Nat := 0
  core : Nat := 0
  unit : Nat := 0
deriving DecidableEq, Repr

/-- What the device keeps of a record in the ring: handle, slots, whether it is pending and counted, agent, core and unit, the tenant and
the team slot that it names. -/
structure RecInfo where
  handle : Word32 := 0
  slots : Nat := 1
  pend : Bool := false
  counted : Bool := false
  agent : Nat := 0
  core : Nat := 0
  unit : Nat := 0
  code : Nat := 0
  gref : Word := 0
  rpm : Nat := 0
  tenant : Nat := 0
  tslot : Nat := 0
deriving DecidableEq, Repr

/-- The fault queue of a die (R313, R400). `acts`: handle, group reference and action of records resolved while their group was
saved (R383). -/
structure FaultQueue where
  base : Nat := 0
  en : Bool := false
  head : Nat := 0
  tail : Nat := 0
  used : Nat := 0
  unres : Nat := 0
  lost : Nat := 0
  gens : Tbl Nat := []
  recs : List RecInfo := []
  waiting : List PendRec := []
  acts : List (Nat × Word × Nat) := []
deriving DecidableEq, Repr

/-- A dependency counter (R364). -/
structure DepCnt where
  owner : Nat := 0xFF
  err : Bool := false
  val : Word32 := 0
deriving DecidableEq, Repr

/-- The command words of a queue block (R342, R400), as read back. `invalFor`: what an invalidation in progress still waits for: held
accesses (core, slot, instruction in flight) and collectives (core, 16, number) whose translations it covers. -/
structure CmdWords where
  inval : BitVec 128 := 0
  invalFor : List (Nat × Nat × Nat) := []
  kill : BitVec 128 := 0
  preempt : BitVec 256 := 0
  resume : BitVec 128 := 0
  resolve : Word := 0
  saving : Bool := false
  saveOff : Nat := 0
  saveCnt : Nat := 0
  small : Bool := false
deriving DecidableEq, Repr

/-- The dispatcher of a die (R304, R306). -/
structure Dispatcher where
  active : List Active := []
  takes : Nat := 0
  lastQ : Nat := 63
  lastCore : Nat := 47
  lastClus : Nat := 5
  idle : Option Nat := some 0
  steal : Nat := 2000
  paused : List Nat := []
deriving DecidableEq, Repr

/-- The core clock of a die (R13, R371, R372, R425, R426): step code, CYC, CYCN with its hidden remainder in 1/1280; the nanoseconds
still to come of a relock, and the step it leads to; `counted`: the counters have passed the boundary at which the next cycle begins (a
relock stands there); the change that is due, with its cause; the requested, thermal and power steps; and for how many tenths of a
millisecond the die has been too hot, and cool; `owed`: core cycles that elapsed time has brought and that have not passed yet, in units of 10^-10. -/
structure Clock where
  step : Nat := 1
  cyc : Word := 0
  cycn : Word := 0
  rem : Nat := 0
  relock : Option Nat := none
  counted : Bool := false
  goal : Nat × Nat := (1, 0)
  next : Option (Nat × Nat) := none
  req : Nat := 3
  thermal : Nat := 3
  power : Nat := 3
  temp : Nat := 0
  hotFor : Nat := 0
  coolFor : Nat := 0
  owed : Nat := 0
deriving DecidableEq, Repr

/-- A C-die (R7). Cluster barriers keyed 8 cluster + k. -/
structure Die where
  clk : Clock := {}
  queues : Tbl TaskQueue := []
  disp : Dispatcher := {}
  fq : FaultQueue := {}
  cmd : CmdWords := {}
  dcs : Tbl DepCnt := []
  heaptab : Nat := 0
  notify : Word := 0
  cbars : Tbl Bar := []
  cbHeld : Tbl Nat := []
  tlb : List TlbEntry := []
  frozen : Bool := false
deriving DecidableEq, Repr

/-- A task from its taking to its completion (R305); `saved`: indexes of its groups that are saved (R392); `cbs`: how the cluster barriers
of its sets stood when the last group of a set left its cluster, keyed 8 set + barrier. -/
structure Task where
  live : Bool := false
  hdr : BitVec 512 := 0
  queue : Nat := 0
  die : Nat := 0
  enq : Nat := 0
  prv : Bool := false
  cls : Nat := 3
  tenant : Nat := 0
  err : Bool := false
  killed : Bool := false
  saved : List Nat := []
  cbs : Tbl Bar := []
deriving DecidableEq, Repr

/-- An import window (R402). -/
structure Import where
  src : BitVec 256 := 0
  en : Bool := false
  tenant : Nat := 0
  limit : Nat := 0
  base : Nat := 0
deriving DecidableEq, Repr

/-- A grid barrier: its map word, the barrier, the holding task (R361 to R363). -/
structure Grid where
  map : BitVec 256 := 0
  tenant : Nat := 0
  en : Bool := false
  holder : Option Nat := none
  bar : Bar := {}
deriving DecidableEq, Repr

/-- The I/O block (R401) and the host port: errors counted per function (R405), ATS entries (function, page), interrupts sent,
requests sent to the host (function, PASID, the offsets in the host window; R405), bytes written to the host window, completions of host
reads (0 data, 1 unsupported request, 2 completer abort, 3 poisoned data, 4 retry), SPDM answers, and replies to other devices (device,
served, data), oldest first. -/
structure IoBlock where
  vfb : Tbl Word := []
  roots : Tbl Word := []
  domidx : Nat := 0
  ctxs : Tbl (BitVec 256) := []
  grids : Tbl Grid := []
  routes : Tbl (BitVec 16) := []
  imports : Tbl Import := []
  down : List Nat := []
  ats : List (Nat × Nat) := []
  fnErrs : Tbl Nat := []
  msix : List (Nat × Nat) := []
  hostReqs : List (Nat × Option Nat × List Nat) := []
  hostOut : List (Nat × Byte) := []
  answers : List (Nat × List Byte) := []
  spdm : List (Nat × List Byte) := []
  replies : List (Nat × Bool × List Byte) := []
deriving DecidableEq, Repr

/-- What waits to leave through an Omger port (R412, R414, R419): its virtual channel, the device it goes to, tenant and class; of a
message about a grid barrier (R417), its number, then 0 and the count of an arrival, or 1 and the status with which a phase ended. -/
structure OutFlit where
  vc : Nat := 0
  dev : Nat := 0
  tenant : Nat := 0
  cls : Nat := 3
  what : List Nat := []
deriving DecidableEq, Repr

/-- An Omger port (R409 to R413): the next SEQ to send, the last SEQ accepted, the last acknowledged by the other end, whether it
rejects until a resend, resends of one flit, the replay buffer, flits sent and accepted (oldest first), what waits to be sent, the
channel of 2 to 4 that was served last, skid occupancy, stop bits sent and received, and the lanes. -/
structure Port where
  txSeq : Nat := 0
  rxSeq : Nat := 4095
  ackd : Nat := 4095
  rejecting : Bool := false
  resends : Nat := 0
  replay : List (List Byte) := []
  sent : List (List Byte) := []
  queued : List OutFlit := []
  turn : Nat := 4
  skid : Tbl Nat := []
  stopOut : BitVec 8 := 0
  stopIn : BitVec 8 := 0
  got : List (List Byte) := []
  training : Bool := false
  lanes : Nat := 8
  shadow : Nat := 8
  weak : List Nat := []
deriving DecidableEq, Repr

/-- A Dravim link between two dies (R7, R413): the lane that is its calibrated shadow, and the weak lanes. -/
structure Dravim where
  shadow : Nat := 0
  weak : List Nat := []
deriving DecidableEq, Repr

/-- A capsule store (R324, R325, R333): state 0 free, 1 stored, 3 lost; all recorders by core; the 1,024 slots of each die's fault queue
as they stand, keyed 1024 die + slot, and the whole records among them by die and slot, with their continuation slots; the snapshot; the
salt; tenants that have acknowledged; whether the slot or its mirror was recovered or damaged; the capsules signed so far, by reader. -/
structure Store where
  st : Nat := 0
  serial : Nat := 0
  time : Nat := 0
  cause : Nat := 0
  origin : Nat := 0xFF
  odie : Nat := 0
  rings : Tbl Recorder := []
  slots : Tbl (BitVec 512) := []
  recs : List (Nat × Nat × BitVec 512 × List (BitVec 512)) := []
  snap : List Byte := []
  snapQueues : List (Nat × List Byte) := []
  salt : List Byte := []
  acked : List Nat := []
  views : List (Nat × List Byte) := []
  mirrored : Bool := false
deriving DecidableEq, Repr

/-- A broadcast FREEZE (R321, R322). -/
structure Freeze where
  time : Nat := 0
  origin : Nat := 0xFF
  odie : Nat := 4
  cause : Nat := 0
  handle : Nat := 0
deriving DecidableEq, Repr

/-- An entry of the ERRORS list (R430). -/
structure ErrEntry where
  kind : Nat := 0
  die : Nat := 0
  unit : Nat := 0
  detail : Nat := 0
  time : Nat := 0
deriving DecidableEq, Repr

/-- PTP discipline (R370): lock 0 free-running, 1 locked, 2 holdover; whether it ever locked and still slews after a first lock behind
reference time; offset in ns and rate in parts per billion as reported. -/
structure Ptp where
  lock : Nat := 0
  everLocked : Bool := false
  slewing : Bool := false
  offset : Int := 0
  rate : Int := 0
deriving DecidableEq, Repr

/-- A mailbox request whose reply waits for the next sensor period (R425). -/
structure MailReq where
  fn : Nat := 0
  code : Nat := 0
  tag : Nat := 0
  req : List Byte := []
deriving DecidableEq, Repr

/-- The Uzothes root controller (R420 to R430). Boot: 0 off, 9 in step 1, n from 1 to 7 steps 1 to n done, 8
recovery; whether the PF's configuration space is ready; when the dies were released, and the last sensor period; module powers read, newest
first; whether a thermal shutdown is to power the module off. Power: 0 ACTIVE, 1 QUIESCE, 2 STANDBY.
Flash images by slot ([]: the image of manufacture), the slot that boots next and the one that runs; the fused minimum SVN and what
measurement 1 took in at boot; mailboxes by function; errors and stores; serial of freezes; the next LMS leaf; broadcasts of the
freeze in progress or past, whether its store is assembled, and a freeze that was dropped (R325); the mirror of the stores in the DDR tier
(R330), the I/O dies (4 and 5) that have stopped under a freeze, and the Dravim links (R7): 0 to 5 between two C-dies, 6 to 13 between
C-die and I/O die. -/
structure Ctrl where
  boot : Nat := 7
  cfg : Bool := true
  released : Nat := 0
  sensed : Nat := 0
  powers : List Nat := []
  trip : Bool := false
  power : Nat := 0
  throttle : Nat := 95
  limit : Nat := 2100
  powerFor : Nat := 0
  images : Tbl (List Byte) := []
  nextSlot : Nat := 0
  active : Nat := 0
  upload : Tbl Byte := []
  svn : Nat := 0
  bootSvn : Nat := 0
  bootRetired : List Nat := []
  mbox : Tbl Word := []
  mreq : Tbl Byte := []
  mrep : Tbl Byte := []
  waiting : List MailReq := []
  ptp : Ptp := {}
  epoch : Nat := 0
  errors : List ErrEntry := []
  memErrs : Tbl ErrCnt := []
  memWin : Nat := 0
  stores : Tbl Store := []
  serial : Nat := 0
  lms : Nat := 0
  freezes : List Freeze := []
  assembled : Bool := false
  dropped : Option (Nat × Freeze) := none
  resetHeld : Bool := false
  mirror : Tbl Store := []
  ioFrozen : List Nat := []
  dravim : Tbl Dravim := []
deriving DecidableEq, Repr

end Sys2Proof.Machine
end

