-- ==== Sys2Proof/Machine/State.lean ====
section
/-! DEFINITION. The state of the machine: everything spec/ gives the Mladpex 960 (INVENTORY.md lists it), as plain data,
with the reasons a step can stop and the state after reset. -/

namespace Sys2Proof.Machine

/-- Why the machine stops with a fault. The faults of the instruction set (17 R379) are no stops: they are next states. -/
inductive Fault where
  /-- Raised by a step whose agenda names an instruction as if it were an event of the device. Safe: no such event exists. -/
  | notAnEvent
  /-- Raised by an event that names a core, die, port, queue or slot the device does not have. Safe: no such unit exists. -/
  | noSuchUnit (name : String) (i : Nat)
deriving DecidableEq, Repr

/-- Why an instruction has no meaning here. -/
inductive Refusal where
  /-- Raised by an arm of exec that has no meaning yet. Safe. -/
  | notModelled (mnemonic : String)
deriving DecidableEq, Repr

/-- Who issues (R30, R308): a team slot of a core, or a gatherer of a core. -/
inductive Agent where
  | team (core slot : Nat)
  | gath (core idx : Nat)
deriving DecidableEq, Repr

/-- What happens next: an event of the device, or a nanosecond of reference time passing. -/
inductive Turn where
  | occur (i : Instr)
  | elapse
deriving DecidableEq, Repr

/-- The memory of the device by physical address (R230): the byte of every address that does not read zero, and the granules
whose data is uncorrectable (R233), 32-byte granules of HBM and DDR and 16-byte words of the scratchpads, by first byte. -/
structure Memory where
  bytes : Tbl Byte := []
  bad : Tbl Bool := []
deriving DecidableEq, Repr

/-- The machine. `agenda` says which events come next, `selected` what this cycle's issue logic chose, `cur` who issues now;
`turn` counts the turns that the device chose by itself, `seq` numbers the free values. -/
structure State where
  mem : Memory := {}
  cores : Tbl Core := []
  dies : Tbl Die := []
  tasks : Tbl Task := []
  io : IoBlock := {}
  ports : Tbl Port := []
  ctrl : Ctrl := {}
  time : Nat := 0
  ddr : Nat := 0x80_0000_0000
  cur : Agent := .team 0 0
  selected : List Agent := []
  agenda : List Turn := []
  turn : Nat := 0
  seq : Nat := 0
deriving DecidableEq, Repr

/-- The machine right after reset (19 R420 step 7): every table at its reset values. -/
def State.reset : State := {}

end Sys2Proof.Machine
end

