-- ==== Sys2Proof/Machine/Access.lean ====
section
/-! DEFINITION. Access to the parts of the state: cores, dies, teams, the issuing agent, its mask and its registers with the
hazards of 05 R90 and R91. -/

namespace Sys2Proof.Machine

/-- The C-die of a core (R8). -/
def dieOfCore (k : Nat) : Nat := k / 48

def State.core (s : State) (k : Nat) : Core := Tbl.get {} s.cores k
def State.setCore (s : State) (k : Nat) (c : Core) : State := { s with cores := Tbl.set {} s.cores k c }
def State.onCore (s : State) (k : Nat) (f : Core → Core) : State := s.setCore k (f (s.core k))
def State.die (s : State) (d : Nat) : Die := Tbl.get {} s.dies d
def State.setDie (s : State) (d : Nat) (x : Die) : State := { s with dies := Tbl.set {} s.dies d x }
def State.onDie (s : State) (d : Nat) (f : Die → Die) : State := s.setDie d (f (s.die d))
def Core.team (c : Core) (i : Nat) : Team := Tbl.get {} c.teams i
def Core.setTeam (c : Core) (i : Nat) (t : Team) : Core := { c with teams := Tbl.set {} c.teams i t }
def State.team (s : State) (k i : Nat) : Team := (s.core k).team i
def State.setTeam (s : State) (k i : Nat) (t : Team) : State := s.onCore k (fun c => c.setTeam i t)
def State.onTeam (s : State) (k i : Nat) (f : Team → Team) : State := s.setTeam k i (f (s.team k i))
def State.gath (s : State) (k g : Nat) : Gatherer := Tbl.get {} (s.core k).gaths g
def State.onGath (s : State) (k g : Nat) (f : Gatherer → Gatherer) : State :=
  s.onCore k (fun c => { c with gaths := Tbl.upd {} c.gaths g f })
def Core.group (c : Core) (g : Nat) : Group := Tbl.get {} c.groups g
def State.onGroup (s : State) (k g : Nat) (f : Group → Group) : State :=
  s.onCore k (fun c => { c with groups := Tbl.upd {} c.groups g f })
def State.onTabs (s : State) (k : Nat) (f : CoreTabs → CoreTabs) : State := s.onCore k (fun c => { c with tabs := f c.tabs })
def State.onMat (s : State) (k : Nat) (f : CoreMat → CoreMat) : State := s.onCore k (fun c => { c with mat := f c.mat })
def State.onCtl (s : State) (k : Nat) (f : CoreCtl → CoreCtl) : State := s.onCore k (fun c => { c with ctl := f c.ctl })

/-- The core, and for a team its slot, of the agent that issues. -/
def State.ck (s : State) : Nat := match s.cur with | .team k _ => k | .gath k _ => k

/-- Whether a gatherer issues. -/
def State.isGath (s : State) : Bool := match s.cur with | .team .. => false | .gath .. => true

/-- The slot of the team that issues, or of the team a gatherer is bound to. -/
def State.slot (s : State) : Nat := match s.cur with | .team _ i => i | .gath k g => (s.gath k g).slot

/-- The gatherer that issues. -/
def State.gi (s : State) : Nat := match s.cur with | .team .. => 0 | .gath _ g => g

/-- The team of the agent that issues. -/
def State.tm (s : State) : Team := s.team s.ck s.slot
def State.onTm (s : State) (f : Team → Team) : State := s.onTeam s.ck s.slot f
def State.cr (s : State) : Core := s.core s.ck
def State.gt (s : State) : Gatherer := s.gath s.ck s.gi
def State.onGt (s : State) (f : Gatherer → Gatherer) : State := s.onGath s.ck s.gi f

/-- The group of the agent that issues. -/
def State.grpOf (s : State) : Group := s.cr.group s.tm.id.grp

def Team.onRegs (t : Team) (f : TeamRegs → TeamRegs) : Team := { t with regs := f t.regs }
def Team.onPath (t : Team) (f : TeamPath → TeamPath) : Team := { t with path := f t.path }
def Team.onFlt (t : Team) (f : TeamFault → TeamFault) : Team := { t with flt := f t.flt }
def State.onRegs (s : State) (f : TeamRegs → TeamRegs) : State := s.onTm (Team.onRegs · f)
def State.onPath (s : State) (f : TeamPath → TeamPath) : State := s.onTm (Team.onPath · f)

/-- The low 60 bits of an address that a PC holds, 8-byte aligned (R46). -/
def pcMask (w : Word) : Word := w &&& 0x0FFF_FFFF_FFFF_FFF8

/-- The address of the next word in line. -/
def nextPc (w : Word) : Word := pcMask (w + 8)

/-- The PC of the issuing agent. -/
def State.pc (s : State) : Word := match s.cur with | .team .. => s.tm.path.pc | .gath .. => s.gt.pc
def State.setPc (s : State) (w : Word) : State :=
  match s.cur with
  | .team .. => s.onPath (fun p => { p with pc := w })
  | .gath .. => s.onGt (fun g => { g with pc := w })

/-- The PC of the instruction that issues: the PC, or in a replay FPC (R382). -/
def State.ipc (s : State) : Word :=
  match s.cur with
  | .team .. => if s.tm.flt.replay then s.tm.flt.fpc else s.tm.path.pc
  | .gath .. => s.gt.pc

/-- The core clock of the issuing agent's die. -/
def State.cyc (s : State) : Nat := (s.die (dieOfCore s.ck)).clk.cyc.toNat

/-- The 32 section words of a mask as a summary word (R27). -/
def summOf (m : LaneBits) : Word32 :=
  BitVec.ofNat 32 ((List.range 32).foldl (fun acc i => if m.toNat / 2 ^ (32 * i) % 2 ^ 32 = 0 then acc else acc + 2 ^ i) 0)

/-- A mask of these lanes, its summary in step (R27). -/
def Mask.of (m : LaneBits) : Mask := { sect := m, summ := summOf m }

/-- Lanes 0 to n − 1. -/
def lanesBelow (n : Nat) : LaneBits := BitVec.ofNat 1024 (2 ^ n - 1)

/-- The lanes of a mask in ascending order, below `n`. -/
def lanesOf (n : Nat) (m : LaneBits) : List Nat := (List.range n).filter (fun l => m.getLsbD l)

/-- A mask from a list of lanes. -/
def maskOf (ls : List Nat) : LaneBits := ls.foldl (fun m l => m ||| (1#1024 <<< l)) 0

/-- The number of lanes of a mask, below `n`. -/
def countLanes (n : Nat) (m : LaneBits) : Nat := (lanesOf n m).length

/-- The lowest lane of a mask, or 0. -/
def lowLane (n : Nat) (m : LaneBits) : Nat := (lanesOf n m).headD 0

/-- Whether the die of a core relocks (R13). -/
def State.relocks (s : State) (k : Nat) : Bool := (s.die (dieOfCore k)).clk.relock.isSome

/-- The core clock of a die changed. -/
def State.onClk (s : State) (d : Nat) (f : Clock → Clock) : State := s.onDie d (fun x => { x with clk := f x.clk })

/-- Active lanes of the running path; a gatherer has one lane, always active (R180). -/
def State.active (s : State) : LaneBits := match s.cur with | .team .. => s.tm.path.mask.sect | .gath .. => 1

/-- Lanes per team of the issuing agent. -/
def State.nl (s : State) : Nat := match s.cur with | .team .. => s.tm.id.lanes | .gath .. => 1

/-- Old or new: the value a read returns while hazards cover the register (R91): the new one or any of the others that may be there. -/
def resolveOld {α : Type} (seq salt : Nat) (new : α) : List α → α
  | [] => new
  | o :: os => if Config.pick seq (salt + os.length) then resolveOld seq salt new os else o

/-- Sections of a summary word above a section. -/
def sectionsAbove (summ : Word32) (sec : Nat) : Nat := ((List.range 32).filter (fun i => decide (sec < i) && summ.getLsbD i)).length

/-- The core cycle from which a fixed-latency result is readable in a lane (R90): that of its section; a scalar's counts from the
first section. -/
def Hazard.readable (h : Hazard) (l : Nat) : Nat :=
  match h.reg with
  | .s _ => h.due - (((List.range 32).filter (fun i => h.summ.getLsbD i)).length - 1)
  | _ => h.due - sectionsAbove h.summ (l / 32)

/-- Whether the result of a hazard may still be unread in a lane. -/
def Hazard.open_ (h : Hazard) (cyc l : Nat) : Bool := h.fly.isSome || decide (cyc < h.readable l)

/-- The writes of a register in a lane among hazards, newest first. -/
def writesOf (r : RegName) (l : Nat) (hs : List Hazard) : List Hazard := hs.filter (fun h => h.reg == r && h.lanes.getLsbD l)

/-- What a read of a register in a lane in cycle `cyc` may return beside its contents, from its writes, newest first (R91). A write that
has not landed leaves what was there before it. Behind one that has landed no earlier fixed-latency write is still to land, and nothing
older is seen again; but earlier variable-latency instructions may still put their values, which alternate with the later one's. -/
def visibleIn (cyc l : Nat) : List Hazard → List OldReg
  | [] => []
  | h :: hs =>
    let open_ := hs.filter (fun g => g.fly.isSome)
    let both := if open_.isEmpty then [] else [h.put]
    if h.open_ cyc l then h.old :: both ++ visibleIn cyc l hs
    else both ++ open_.map (fun g => g.put)

/-- Scalar register `r` as the issuing agent reads it: s0 and gs0 read zero (R45, R58). -/
def State.rs (s : State) (r : Nat) : Word :=
  if r = 0 then 0 else
  match s.cur with
  | .team .. =>
    let t := s.tm
    resolveOld s.seq (64 * r) (Tbl.get 0 t.regs.s r)
      ((visibleIn s.cyc 0 (writesOf (.s r) 0 t.haz)).map (fun o => match o with | .s w => w | _ => 0))
  | .gath .. => Tbl.get 0 s.gt.s r

/-- Vector register `r` in lane `l` in core cycle `cyc`; for a gatherer the scalar register of the same number (R180). -/
def State.rvAt (s : State) (cyc r l : Nat) : VCell :=
  match s.cur with
  | .team .. =>
    let t := s.tm
    resolveOld s.seq (100000 + 64 * (1024 * r + l)) (Tbl.get {} t.regs.v (1024 * r + l))
      ((visibleIn cyc l (writesOf (.v r) l t.haz)).map (fun o => match o with | .v x => Tbl.get {} x l | _ => {}))
  | .gath .. => { val := if r = 0 then 0 else Tbl.get 0 s.gt.s r }

/-- Predicate `p` in a lane in core cycle `cyc`: p0 reads 1 (R43). -/
def State.rpAt (s : State) (cyc p l : Nat) : Bool :=
  if p = 0 then true else
  let t := s.tm
  resolveOld s.seq (6000000 + 64 * (1024 * p + l)) ((Tbl.get 0 t.regs.p p).getLsbD l)
    ((visibleIn cyc l (writesOf (.p p) l t.haz)).map (fun o => match o with | .p m => m.getLsbD l | _ => false))

/-- Cursor `c` of lane `l` in core cycle `cyc`, or the gatherer's. -/
def State.rcAt (s : State) (cyc c l : Nat) : Cursor :=
  match s.cur with
  | .team .. =>
    let t := s.tm
    resolveOld s.seq (7000000 + 64 * (8 * l + c)) (Tbl.get {} t.regs.c (8 * l + c))
      ((visibleIn cyc l (writesOf (.c c) l t.haz)).map (fun o => match o with | .c x => Tbl.get {} x l | _ => {}))
  | .gath .. => Tbl.get {} s.gt.c c

/-- Sections of a summary word below a section. -/
def sectionsBelow (summ : Word32) (sec : Nat) : Nat := ((List.range sec).filter (fun i => summ.getLsbD i)).length

/-- The core cycle in which a sweep that issues now reads in a lane: that of the lane's section (R28, R91). -/
def State.readCyc (s : State) (l : Nat) : Nat := s.cyc + sectionsBelow s.tm.path.mask.summ (l / 32)

/-- A register in a lane as a sweep reads it, each lane with its section (R90, R91). -/
def State.rv (s : State) (r l : Nat) : VCell := s.rvAt (s.readCyc l) r l
def State.rp (s : State) (p l : Nat) : Bool := s.rpAt (s.readCyc l) p l
def State.rc (s : State) (c l : Nat) : Cursor := s.rcAt (s.readCyc l) c l

/-- A register in a lane as an instruction reads it that does not sweep, or that reads lanes of any section (R28, R136). -/
def State.rvNow (s : State) (r l : Nat) : VCell := s.rvAt s.cyc r l
def State.rpNow (s : State) (p l : Nat) : Bool := s.rpAt s.cyc p l

/-- Until when a result of the instruction now issuing is not promised to be read: its newest entry in flight (R90). -/
def Team.due (t : Team) : Nat × Option Nat :=
  match t.fly with
  | [] => (0, none)
  | f :: _ => match f.due with
    | some d => (d, none)
    | none => (0, some f.id)

/-- The hazard of a write by the instruction now issuing. -/
def Team.hazard (t : Team) (reg : RegName) (lanes : LaneBits) (old put : OldReg) : Hazard :=
  { reg, lanes, old, put, due := t.due.1, fly := t.due.2, summ := match t.fly with | f :: _ => f.summ | [] => 0 }

/-- The value that stays when a write meets an incomplete variable-latency write of the same register (R91). -/
def mergeNew {α : Type} (seq salt : Nat) (blocked : Bool) (old new : α) : α :=
  if blocked then (if Config.pick seq salt then new else old) else new

/-- Whether an incomplete variable-latency instruction other than `id` is to write a register in a lane. -/
def Team.varPending (t : Team) (id : Option Nat) (r : RegName) (l : Nat) : Bool :=
  t.haz.any (fun h => h.reg == r && h.lanes.getLsbD l && h.fly.isSome && h.fly != id)

/-- A write to scalar `r`; s0 discards it (R45). -/
def State.ws (s : State) (r : Nat) (w : Word) : State :=
  if r = 0 then s else
  match s.cur with
  | .team .. =>
    s.onTm (fun t =>
      let fly := t.due.2
      let old := Tbl.get 0 t.regs.s r
      let new := mergeNew s.seq (8000000 + r) (t.varPending fly (.s r) 0) old w
      { t with
        regs := { t.regs with s := Tbl.set 0 t.regs.s r new }
        haz := t.hazard (.s r) 1 (.s old) (.s w) :: t.haz })
  | .gath .. => s.onGt (fun g => { g with s := Tbl.set 0 g.s r w })

/-- Cells written to vector `r`, in list order. -/
def putCells (seq r : Nat) (t : Team) (fly : Option Nat) (cells : List (Nat × VCell)) (v : Tbl VCell) : Tbl VCell :=
  cells.foldl (fun acc e =>
    let old := Tbl.get {} acc (1024 * r + e.1)
    Tbl.set {} acc (1024 * r + e.1) (mergeNew seq (9000000 + e.1) (t.varPending fly (.v r) e.1) old e.2)) v

/-- Lanes of vector `r` written together: (lane, cell) pairs. A gatherer writes its scalar register, which has no poison mark (R58): what it
loads of uncorrectable data is there as bytes, which is the model's choice (log 141). -/
def State.wv (s : State) (r : Nat) (cells : List (Nat × VCell)) : State :=
  match s.cur with
  | .team .. =>
    if cells.isEmpty then s else
    s.onTm (fun t =>
      let fly := t.due.2
      let old := cells.map (fun e => (e.1, Tbl.get {} t.regs.v (1024 * r + e.1)))
      { t with
        regs := { t.regs with v := putCells s.seq r t fly cells t.regs.v }
        haz := t.hazard (.v r) (maskOf (cells.map Prod.fst)) (.v old) (.v cells) :: t.haz })
  | .gath .. =>
    match cells with
    | [] => s
    | e :: _ => if r = 0 then s else s.onGt (fun g => { g with s := Tbl.set 0 g.s r e.2.val })

/-- Predicate `p` written in `lanes` from `vals`; p0 discards (R43). A gatherer's predicate is a scalar of 0 or 1 (R180). -/
def State.wp (s : State) (p : Nat) (lanes vals : LaneBits) : State :=
  if p = 0 then s else
  match s.cur with
  | .team .. =>
    s.onTm (fun t =>
      let fly := t.due.2
      let old := Tbl.get 0 t.regs.p p
      let blocked := maskOf ((lanesOf t.id.lanes lanes).filter (fun l =>
        t.varPending fly (.p p) l && !Config.pick s.seq (10000000 + l)))
      let put := lanes &&& ~~~blocked
      { t with
        regs := { t.regs with p := Tbl.set 0 t.regs.p p ((old &&& ~~~put) ||| (vals &&& put)) }
        haz := t.hazard (.p p) lanes (.p old) (.p vals) :: t.haz })
  | .gath .. => s.onGt (fun g => { g with s := Tbl.set 0 g.s p (if vals.getLsbD 0 then 1 else 0) })

/-- Lanes of cursor `c` written together. -/
def State.wc (s : State) (c : Nat) (cells : List (Nat × Cursor)) : State :=
  match s.cur with
  | .team .. =>
    if cells.isEmpty then s else
    s.onTm (fun t =>
      let fly := t.due.2
      let old := cells.map (fun e => (e.1, Tbl.get {} t.regs.c (8 * e.1 + c)))
      { t with
        regs := { t.regs with
          c := cells.foldl (fun acc e =>
            let o := Tbl.get {} acc (8 * e.1 + c)
            Tbl.set {} acc (8 * e.1 + c)
              (mergeNew s.seq (11000000 + e.1) (t.varPending fly (.c c) e.1) o e.2)) t.regs.c }
        haz := t.hazard (.c c) (maskOf (cells.map Prod.fst)) (.c old) (.c cells) :: t.haz })
  | .gath .. =>
    match cells with
    | [] => s
    | e :: _ => s.onGt (fun g => { g with c := Tbl.set {} g.c c e.2 })

/-- Whether a guard holds that reads `p` (R94). -/
def holdsGuard (p : Nat → Bool) (g : BitVec 4) : Bool := g == 0 || p (g.toNat % 8) != decide (8 ≤ g.toNat)

/-- The active lanes in which a guard holds; in a replay, the lanes of RPM (R94, R382). Guard 0b1000, which is illegal, guards no lane
off. `p l q`: predicate `q` in lane `l`. -/
def State.servedAs (s : State) (p : Nat → Nat → Bool) (g : BitVec 4) : LaneBits :=
  match s.cur with
  | .team .. =>
    if s.tm.flt.replay then s.tm.regs.rpm
    else if g = 0 ∨ g = 8 then s.active
    else maskOf ((lanesOf s.nl s.active).filter (fun l => holdsGuard (p l) g))
  | .gath .. => 1

/-- The lanes that a sweep serves, and those that an instruction serves that does not sweep (R28, R94). -/
def State.served (s : State) (g : BitVec 4) : LaneBits := s.servedAs (fun l p => s.rp p l) g
def State.servedNow (s : State) (g : BitVec 4) : LaneBits := s.servedAs (fun l p => s.rpNow p l) g

/-- The lanes served, in ascending order. -/
def State.lanes (s : State) (g : BitVec 4) : List Nat := lanesOf s.nl (s.served g)
def State.lanesNow (s : State) (g : BitVec 4) : List Nat := lanesOf s.nl (s.servedNow g)

/-- Status bits that the issuing instruction sets at its completion (R55); a gatherer writes no register of its team (R58). -/
def State.orStat (s : State) (bits : Word32) : State :=
  if bits = 0 then s else
  match s.cur with
  | .team .. => s.onTm (fun t =>
      match t.fly with
      | [] => { t with regs := { t.regs with tstat := t.regs.tstat ||| bits } }
      | f :: fs => { t with fly := { f with stat := f.stat ||| bits } :: fs })
  | .gath .. => s

/-! Performance counters (16 R374). -/

/-- A bit field of a number. -/
def natBits (x lo n : Nat) : Nat := x / 2 ^ lo % 2 ^ n

/-- A performance event counted `n` times, for a tenant where it concerns one (0x100 otherwise). -/
def CoreCtl.count (c : CoreCtl) (evt tenant n : Nat) : CoreCtl :=
  { c with pcval := c.pcsel.foldl (fun t e =>
      let w := e.2
      if w.getLsbD 63 && decide (w.toNat % 64 = evt) && (!w.getLsbD 62 || decide (natBits w.toNat 54 8 = tenant)) then
        Tbl.upd 0 t e.1 (fun v => v + BitVec.ofNat 64 n) else t) c.pcval }

/-- A performance event of core `k`. -/
def State.count (s : State) (k evt tenant n : Nat) : State := if n = 0 then s else s.onCtl k (·.count evt tenant n)

end Sys2Proof.Machine
end

