-- ==== Sys2Proof/Machine/PhysMem.lean ====
section
/-! DEFINITION. Physical memory: the map of 10 R230 to R232, bytes and little-endian words (R5), granules and
uncorrectable data (R233). -/

namespace Sys2Proof.Machine

/-- Memory in its canonical form: both tables sorted, no listed default. -/
def Memory.wf (m : Memory) : Bool := Tbl.wf 0 m.bytes && Tbl.wf false m.bad

/-- First byte of the window of core `k` (R230). -/
def winBase (k : Nat) : Nat := 0xF00_0000_0000 + k * 0x200_0000

/-- Regions of the physical map (R230, R234): memory, a window region of a core with the offset in it, host, or hole. -/
inductive Region where
  | hbm
  | ddr
  | scratch (core off : Nat)
  | accum (core off : Nat)
  | vregs (core off : Nat)
  | cursors (core off : Nat)
  | weights (core off : Nat)
  | control (core off : Nat)
  | host (off : Nat)
  | hole
deriving DecidableEq, Repr

/-- The region of an offset in a core window (R234). -/
def windowRegion (k o : Nat) : Region :=
  if o < 0x30_0000 then .scratch k o
  else if 0x80_0000 ≤ o ∧ o < 0x84_0000 then .accum k (o - 0x80_0000)
  else if 0x100_0000 ≤ o ∧ o < 0x110_0000 then .vregs k (o - 0x100_0000)
  else if 0x140_0000 ≤ o ∧ o < 0x144_0000 then .cursors k (o - 0x140_0000)
  else if 0x180_0000 ≤ o ∧ o < 0x190_0000 then .weights k (o - 0x180_0000)
  else if 0x1C0_0000 ≤ o ∧ o < 0x1C1_0000 then .control k (o - 0x1C0_0000)
  else .hole

/-- The region of a physical address, with DDRSIZE (R230, R231). -/
def regionOf (ddr pa : Nat) : Region :=
  if pa < 0x80_0000_0000 then .hbm
  else if 0x100_0000_0000 ≤ pa ∧ pa < 0x100_0000_0000 + ddr then .ddr
  else if 0xF00_0000_0000 ≤ pa ∧ pa < 0xF01_8000_0000 then
    windowRegion ((pa - 0xF00_0000_0000) / 0x200_0000) ((pa - 0xF00_0000_0000) % 0x200_0000)
  else if 0x8_0000_0000_0000 ≤ pa ∧ pa < 0x10_0000_0000_0000 then .host (pa - 0x8_0000_0000_0000)
  else .hole

/-- Whether a physical byte is HBM, DDR or scratchpad. -/
def Region.plain : Region → Bool
  | .hbm | .ddr | .scratch .. => true
  | _ => false

/-- Home C-die (R232). -/
def homeDie (pa : Nat) : Nat :=
  if pa < 0x80_0000_0000 then natBits pa 37 2
  else natBits pa 12 2 ^^^ natBits pa 22 2 ^^^ natBits pa 30 2 ^^^ natBits pa 40 2

/-- Home slice within the home die (R232). -/
def homeSlice (pa : Nat) : Nat := natBits pa 7 4 ^^^ natBits pa 16 4 ^^^ natBits pa 24 4

/-- The HBM stack of an HBM address (R232). -/
def hbmStack (pa : Nat) : Nat := 2 * natBits pa 37 2 + (natBits pa 12 1 ^^^ natBits pa 20 1)

/-- Granule size at a physical address: 16 bytes in a window, 32 elsewhere (R233). -/
def granuleSize (pa : Nat) : Nat := if 0xF00_0000_0000 ≤ pa ∧ pa < 0xF01_8000_0000 then 16 else 32

/-- First byte of the granule of a physical address. -/
def granuleOf (pa : Nat) : Nat := pa / granuleSize pa * granuleSize pa

def Memory.byte (m : Memory) (pa : Nat) : Byte := Tbl.get 0 m.bytes pa
def Memory.isBad (m : Memory) (pa : Nat) : Bool := Tbl.get false m.bad (granuleOf pa)

/-- `n` bytes from `pa` upwards. -/
def Memory.read (m : Memory) (pa n : Nat) : List Byte := (List.range n).map (fun i => m.byte (pa + i))

/-- Whether any of `n` bytes from `pa` is uncorrectable (R233). -/
def Memory.unc (m : Memory) (pa n : Nat) : Bool := (List.range n).any (fun i => m.isBad (pa + i))

/-- Bytes put from `pa` upwards, with the condition of granules untouched. -/
def putBytes : Tbl Byte → Nat → List Byte → Tbl Byte
  | t, _, [] => t
  | t, pa, b :: bs => putBytes (Tbl.set 0 t pa b) (pa + 1) bs

/-- The granules that `n` bytes from `pa` cover wholly (R233). -/
def wholeGranules (pa n : Nat) : List Nat :=
  ((List.range n).map (fun i => pa + i)).filter (fun a => granuleOf a == a && decide (a + granuleSize a ≤ pa + n))

/-- A write: a granule covered wholly becomes correct, a partial write leaves it as it was (R233). -/
def Memory.write (m : Memory) (pa : Nat) (bs : List Byte) : Memory :=
  { bytes := putBytes m.bytes pa bs
    bad := (wholeGranules pa bs.length).foldl (fun t g => Tbl.set false t g false) m.bad }

/-- A granule marked uncorrectable. -/
def Memory.spoil (m : Memory) (pa : Nat) : Memory := { m with bad := Tbl.set false m.bad (granuleOf pa) true }

/-- The number that bytes hold, lowest address first (R5). -/
def leNat (bs : List Byte) : Nat := bs.foldr (fun b acc => b.toNat + 256 * acc) 0

/-- `n` bytes of a number, lowest first. -/
def leBytes (n x : Nat) : List Byte := (List.range n).map (fun i => BitVec.ofNat 8 (x / 256 ^ i))

def Memory.readLe (m : Memory) (pa n : Nat) : Nat := leNat (m.read pa n)
def Memory.writeLe (m : Memory) (pa n x : Nat) : Memory := m.write pa (leBytes n x)

def State.onMem (s : State) (f : Memory → Memory) : State := { s with mem := f s.mem }

/-- A write that no L1 line sees: by the device itself (R240). An address that is no memory takes nothing. -/
def State.poke (s : State) (pa : Nat) (bs : List Byte) : State :=
  if (regionOf s.ddr pa).plain then s.onMem (fun m => m.write pa bs) else s

end Sys2Proof.Machine
end

