-- ==== Sys2Proof/Machine/Record.lean ====
section
/-! DEFINITION. The event recorder (14 R315 to R320) and the die fault queue (13 R313, 17 R377 to R379). -/

namespace Sys2Proof.Machine

/-- An event word (R316). -/
def evWord (ty team tenant time payload : Nat) : BitVec 128 :=
  BitVec.ofNat 128 (ty * 2 ^ 122 + team % 16 * 2 ^ 118 + tenant % 256 * 2 ^ 110 + time % 2 ^ 46 * 2 ^ 64 + payload % 2 ^ 64)

/-- An event with the reference time of its acceptance (R316, R317). -/
def stampEvent (time : Nat) (ev : BitVec 128) : BitVec 128 :=
  BitVec.ofNat 128 (ev.toNat / 2 ^ 110 * 2 ^ 110 + time % 2 ^ 46 * 2 ^ 64 + ev.toNat % 2 ^ 64)

/-- Whether the next event of a class finds no entry of the input buffer (R317): 16 of the 64 are kept for class P. -/
def Recorder.full (r : Recorder) (clsP : Bool) : Bool :=
  if clsP then !r.held.isEmpty || decide (64 ≤ r.buf.length) else decide (48 ≤ r.buf.length)

/-- An event that the input buffer takes in, if it has an entry (R317). A class-T event that finds none is dropped and counted; one of
class P is held. -/
def Recorder.take (r : Recorder) (ev : BitVec 128) (clsP : Bool) : Recorder :=
  if !r.full clsP then { r with buf := r.buf ++ [ev], took := r.took + 1 }
  else if clsP then { r with held := r.held ++ [ev] }
  else { r with drop := min 0xFFFF (r.drop + 1) }

/-- One accepted event written to the ring (R317). -/
def Recorder.put (r : Recorder) (ev : BitVec 128) : Recorder :=
  { r with ring := Tbl.set 0 r.ring r.wptr ev, bad := Tbl.set false r.bad r.wptr false
           wptr := (r.wptr + 1) % 4096, wrap := if r.wptr = 4095 then (r.wrap + 1) % 2 ^ 32 else r.wrap }

/-- The oldest entries of the input buffer written to the ring, at most `n`. -/
def Recorder.write : List (BitVec 128) → Nat → Recorder → Recorder
  | ev :: evs, n + 1, r => Recorder.write evs n (r.put ev)
  | evs, _, r => { r with buf := evs }

/-- An event that the input buffer takes in or drops; a drop is counted (R374). -/
def Core.takeEvent (c : Core) (ev : BitVec 128) (clsP : Bool) : Core :=
  { c with rcd := c.rcd.take ev clsP
           ctl := if !clsP && c.rcd.full clsP then c.ctl.count 15 (natBits ev.toNat 110 8) 1 else c.ctl }

/-- The events that wait, first those held for room, accepted with the time of their acceptance, at most `n` in a cycle (R317). -/
def Core.retryEvents : Nat → Nat → Core → Core
  | 0, _, c => c
  | n + 1, time, c =>
    let r := c.rcd
    match r.held, r.late with
    | ev :: held, _ => if 64 ≤ r.buf.length then c
      else Core.retryEvents n time { c with rcd := { r with buf := r.buf ++ [stampEvent time ev], took := r.took + 1, held := held } }
    | [], (ev, p) :: late => Core.retryEvents n time (Core.takeEvent { c with rcd := { r with late := late } } (stampEvent time ev) p)
    | [], [] => c

/-- A cycle of the recorder's clock (R317): entries written to the ring, as many as it comes to (Config.ringWrites, log 75), then the
events that wait. -/
def Core.recorderCycle (c : Core) (seq time : Nat) : Core :=
  if c.rcd.frz then c
  else
    let r := if c.rcd.buf.isEmpty then c.rcd else Recorder.write c.rcd.buf (Config.ringWrites seq) c.rcd
    Core.retryEvents 2 time { c with rcd := { r with took := 0 } }

/-- An event that comes to a core's recorder: at most two are accepted in a core cycle, the others in later cycles (R317). -/
def Core.event (c : Core) (ev : BitVec 128) (clsP : Bool) : Core :=
  let r := c.rcd
  if r.frz then c
  else if decide (2 ≤ r.took) || !r.late.isEmpty then { c with rcd := { r with late := r.late ++ [(ev, clsP)] } }
  else c.takeEvent ev clsP

/-- An event of the recorder of core `k`. -/
def State.emit (s : State) (k ty team tenant payload : Nat) (clsP : Bool) : State :=
  s.onCore k (fun c => c.event (evWord ty team tenant s.time payload) clsP)

/-- Every core of the package, and of a die. -/
def allCores : List Nat := List.range 192
def coresOf (d : Nat) : List Nat := (List.range 48).map (fun i => 48 * d + i)

/-- A device event of a core (R319). -/
def State.deviceEvent (s : State) (k ty payload : Nat) : State := s.emit k ty 0 0xFF payload true

/-- DVFS on every core of a die (R319, R320). -/
def State.dvfs (s : State) (d old new cause fin : Nat) : State :=
  (coresOf d).foldl (fun s k => s.deviceEvent k 0x0E (old * 2 ^ 62 + new * 2 ^ 60 + cause * 2 ^ 58 + fin * 2 ^ 57)) s

/-- An event that concerns the team that issues (R319). -/
def State.emitTm (s : State) (ty payload : Nat) (clsP : Bool) : State :=
  s.emit s.ck ty s.slot s.tm.id.tenant payload clsP

/-- Bits 59:3 of a PC as an event holds them (R319). -/
def pcBits (w : Word) : Nat := w.toNat % 2 ^ 60 / 8

/-- The cores in service of a die, ascending. -/
def State.inService (s : State) (d : Nat) : List Nat :=
  ((List.range 48).map (fun i => 48 * d + i)).filter (fun k => !(s.core k).ctl.retired)

/-- The lowest-indexed core in service on a die (R320). -/
def State.lowCore (s : State) (d : Nat) : Nat := (s.inService d).headD (48 * d)

/-- The first slot of a fault record (R377), without its handle. -/
structure RecHead where
  pc : Word := 0
  gref : Word := 0
  rtop : Nat := 0
  rnext : Nat := 0
  code : Nat
  reason : Nat := 0
  agent : Nat := 0
  pend : Bool := false
  tenant : Nat := 0
  core : Nat := 0xFF
  tslot : Nat := 0
  gidx : Nat := 0
  nrpm : Nat := 0
  next : Nat := 0
  ovf : Bool := false
  body : Nat := 0
deriving DecidableEq, Repr

/-- The 512 bits of a record's first slot with the handle zero (R377). -/
def RecHead.word (r : RecHead) : BitVec 512 :=
  BitVec.ofNat 512 (r.pc.toNat * 2 ^ 448 + r.gref.toNat * 2 ^ 384 + r.rtop * 2 ^ 336 + r.rnext * 2 ^ 320 + r.code * 2 ^ 312
    + r.reason * 2 ^ 304 + r.agent * 2 ^ 301 + r.pend.toNat * 2 ^ 300 + r.tenant % 256 * 2 ^ 292 + r.core % 256 * 2 ^ 284
    + r.tslot % 16 * 2 ^ 280 + r.gidx % 4 * 2 ^ 278 + r.nrpm % 2048 * 2 ^ 267 + r.next % 32 * 2 ^ 262
    + r.ovf.toNat * 2 ^ 261 + r.body % 2 ^ 256)

/-- Records that stop no agent (R313). -/
def runsOn (code : Nat) : Bool := [0x06, 0x10, 0x11, 0x20, 0x22, 0x23, 0x27, 0x28, 0x29].contains code

/-- The FAULT event of a record (R319, R320); agent 6 has no code there and writes none. -/
def State.faultEvent (s : State) (d : Nat) (r : RecHead) (handle : Nat) : State :=
  if r.agent = 6 then s
  else
    let k := if r.core < 192 then r.core else s.lowCore d
    s.emit k 0x06 r.tslot r.tenant (r.code * 2 ^ 56 + handle * 2 ^ 24 + r.nrpm % 2048 * 2 ^ 13 + r.agent * 2 ^ 10) true

/-- The next generation of a ring slot (R313). -/
def nextGen (g : Nat) : Nat := if g = 2 ^ 22 - 1 then 1 else g + 1

/-- HEAD past every resolved record, in slot order (R313). -/
def FaultQueue.advance (q : FaultQueue) : FaultQueue :=
  let done := q.recs.takeWhile (fun r => !r.pend)
  let n := done.foldl (fun a r => a + r.slots) 0
  { q with recs := q.recs.drop done.length, head := (q.head + n) % 1024, used := q.used - n }

/-- DCADD of 1 by the notify counter (R313), which ignores OWNER. -/
def State.notify (s : State) (d : Nat) : State :=
  let n := (s.die d).notify
  if n.getLsbD 63 then
    let i := n.toNat % 4096
    s.onDie (i / 1024) (fun x => { x with dcs := Tbl.upd {} x.dcs (i % 1024) (fun c => { c with val := c.val + 1 }) })
  else s

/-- The interrupts of a written record (R407): the PF vector of the die, and vector 1 of the VFs bound to the tenant. -/
def State.faultMsi (s : State) (d tenant : Nat) : State :=
  let vfs := (List.range 16).filter (fun k =>
    let w := Tbl.get 0 s.io.vfb k
    w.getLsbD 63 && decide (w.toNat / 2 ^ 55 % 256 = tenant))
  { s with io := { s.io with msix := s.io.msix ++ (0, d) :: vfs.map (fun k => (k + 1, 1)) } }

/-- The slots of a record written to the ring, which has room; the new handle (R313). -/
def State.writeWords (s : State) (d : Nat) (w : BitVec 512) (conts : List (BitVec 512)) (info : RecInfo) (tenant : Nat) : State × Nat :=
  let q := (s.die d).fq
  let n := conts.length + 1
  let slots := (List.range n).map (fun i => (q.tail + i) % 1024)
  let gens := slots.foldl (fun g sl => Tbl.upd 0 g sl nextGen) q.gens
  let handle := q.tail + 1024 * Tbl.get 0 gens q.tail
  let first := w ||| BitVec.ofNat 512 (handle * 2 ^ 352)
  let s := ((first :: conts).zip slots).foldl (fun s e => s.poke (q.base + 64 * e.2) (leBytes 64 e.1.toNat)) s
  let q' : FaultQueue :=
    { q with tail := (q.tail + n) % 1024, used := q.used + n, gens := gens
             unres := if info.counted then q.unres + 1 else q.unres
             recs := q.recs ++ [{ info with handle := BitVec.ofNat 32 handle, slots := n, tenant := tenant, tslot := natBits w.toNat 280 4 }] }
  let s := s.onDie d (fun x => { x with fq := q'.advance })
  (((s.notify d).faultMsi d tenant), handle)

/-- A record written to the ring, which has room; the new handle. -/
def State.writeRec (s : State) (d : Nat) (r : RecHead) (conts : List (BitVec 512)) (info : RecInfo) : State × Nat :=
  s.writeWords d r.word conts info r.tenant

/-- Whether the ring takes `n` slots now: enabled, room, and no earlier record waiting (R313, R400). -/
def FaultQueue.room (q : FaultQueue) (n : Nat) : Bool := q.en && decide (q.used + n ≤ 1024) && q.waiting.isEmpty

/-- A fault record and its FAULT event (R313): written now, held with the agent it stops, deferred, or lost; the handle, or 0
when none was written. -/
def State.record (s : State) (d : Nat) (r : RecHead) (conts : List (BitVec 512)) (info : RecInfo) : State × Nat :=
  let q := (s.die d).fq
  if q.room (conts.length + 1) then
    let (s, h) := s.writeRec d r conts info
    (s.faultEvent d r h, h)
  else if r.code = 0x26 then
    ((s.onDie d (fun x => { x with fq := { x.fq with lost := min 0xFFFF (x.fq.lost + 1) } })).faultEvent d r 0, 0)
  else
    let p : PendRec := { words := r.word :: conts, defer := runsOn r.code, who := info.agent, core := info.core, unit := info.unit }
    if runsOn r.code then
      let s := s.faultEvent d r 0
      if (q.waiting.filter (·.defer)).length < 64 then
        (s.onDie d (fun x => { x with fq := { x.fq with waiting := x.fq.waiting ++ [p] } }), 0)
      else (s.onDie d (fun x => { x with fq := { x.fq with lost := min 0xFFFF (x.fq.lost + 1) } }), 0)
    else (s.onDie d (fun x => { x with fq := { x.fq with waiting := x.fq.waiting ++ [p] } }), 0)

/-- The top two region identifiers of a team as a record or a trace holds them (R51). -/
def Team.tops (t : Team) : Nat × Nat :=
  match t.regs.regions with
  | [] => (0, 0)
  | [a] => (a.toNat, 0)
  | a :: b :: _ => (a.toNat, b.toNat)

end Sys2Proof.Machine
end

