-- ==== Sys2Proof/Machine/Flags.lean ====
section
/-! DEFINITION. The sticky status bits of TSTAT (03 R55) and the completion flags (R50, 05 R89). -/

namespace Sys2Proof.Machine

def stNX : Nat := 1
def stUF : Nat := 2
def stOF : Nat := 4
def stDZ : Nat := 8
def stNV : Nat := 16
def stSAT : Nat := 32
def stSCO : Nat := 64
def stSCU : Nat := 128
def stPOI : Nat := 256
def stMDF : Nat := 512
def stHEX : Nat := 1024
def stROV : Nat := 2048

/-- Status bits of an operation set for the instruction (R55, R135). -/
def State.stat (s : State) (bits : Nat) : State := s.orStat (BitVec.ofNat 32 bits)

/-- Completion flag `k` of a team. -/
def Team.flag (t : Team) (k : Nat) : Flag := Tbl.get {} t.regs.flags k

/-- A signal at issue: COUNT rises and BLAME takes the PC (R89); flag 0 names none. -/
def Team.signal (t : Team) (k : Nat) (pc : Word) : Team :=
  if k = 0 then t
  else t.onRegs (fun r => { r with flags := Tbl.upd {} r.flags k (fun f => { blame := pc, count := f.count + 1 }) })

/-- COUNT falls by one (R50). -/
def Team.unsignal (t : Team) (k : Nat) : Team :=
  if k = 0 then t
  else t.onRegs (fun r => { r with flags := Tbl.upd {} r.flags k (fun f => { f with count := f.count - 1 }) })

/-- Every flag COUNT of the team reads zero (R122). -/
def Team.flagsZero (t : Team) : Bool := t.regs.flags.all (fun e => e.2.count == 0)

/-- The hazards that still matter in cycle `cyc`: results not landed, and landed ones after which an earlier one would land (R91). -/
def pruneHazards (cyc : Nat) (hs : List Hazard) : List Hazard :=
  hs.foldr (fun h kept => if h.fly.isSome || decide (cyc < h.due) || kept.any (fun g => g.reg == h.reg) then h :: kept else kept) []

/-- The results of the instruction `id` have landed (R91): they are what its registers held before any later write that has not. -/
def Hazard.landed (id : Nat) (h : Hazard) : Hazard := if h.fly = some id then { h with fly := none, due := 0 } else h

/-- RPM set by a fault: an earlier replay that is still in flight no longer clears it (R54). -/
def Team.setRpm (t : Team) (m : LaneBits) : Team :=
  { t.onRegs (fun r => { r with rpm := m }) with fly := t.fly.map (fun f => { f with clr := false }) }

/-- An in-flight instruction completes: its status bits are set, then its flag falls, and its results are promised (R50, R55,
R91). A replay clears RPM (R54). -/
def Team.complete (t : Team) (id : Nat) : Team :=
  match t.fly.find? (fun f => f.id == id) with
  | none => t
  | some f =>
    let t := t.onRegs (fun r =>
      { r with tstat := r.tstat ||| f.stat, edge := r.edge ||| f.stat, rpm := if f.clr then 0 else r.rpm })
    let t := t.unsignal f.flag
    { t with fly := t.fly.filter (fun g => g.id != id), haz := pruneHazards 0 (t.haz.map (·.landed id)) }

/-- A core cycle begins: results that are readable by cycle `cyc` are so, and their instructions complete (R89, R90). -/
def Team.completeDue (t : Team) (cyc : Nat) : Team :=
  let due := t.fly.filter (fun f => match f.due with | some d => decide (d ≤ cyc) | none => false)
  let t := due.foldl (fun t f => t.complete f.id) (t.onRegs (fun r => { r with edge := 0 }))
  { t with haz := pruneHazards cyc t.haz }

end Sys2Proof.Machine
end

