-- ==== Sys2Proof/Machine/Num.lean ====
section
/-! DEFINITION. The number formats and their exact arithmetic (04 R63 to R74): values are exact, and each operation rounds
once. -/

namespace Sys2Proof.Machine

/-- A floating-point value: a NaN (signalling or not), an infinity, or (-1)^neg · m · 2^e. -/
inductive Fl where
  | nan (sig : Bool)
  | inf (neg : Bool)
  | fin (neg : Bool) (m : Nat) (e : Int)
deriving DecidableEq, Repr

/-- A floating-point format (R66): fraction bits, exponent bits, bias. -/
structure FpFmt where
  frac : Nat
  expo : Nat
  bias : Nat
deriving DecidableEq, Repr

/-- The layout of a floating-point type code (R66). -/
def fpFmt (t : Nat) : FpFmt :=
  match t with
  | 0x0E => ⟨10, 5, 15⟩
  | 0x0F => ⟨7, 8, 127⟩
  | 0x11 => ⟨3, 4, 7⟩
  | 0x12 => ⟨2, 5, 15⟩
  | 0x13 => ⟨1, 2, 1⟩
  | 0x15 => ⟨17, 8, 127⟩
  | _ => ⟨23, 8, 127⟩

/-- Whether a type code is floating point (without .q4x). -/
def isFp (t : Nat) : Bool := [0x0E, 0x0F, 0x10, 0x11, 0x12, 0x13, 0x15].contains t

/-- Whether a type code is signed (R63). -/
def isSigned (t : Nat) : Bool := decide (t ≤ 4)

/-- The largest finite pattern without its sign (R66). -/
def maxFin (t : Nat) : Nat :=
  match t with
  | 0x11 => 0x7E
  | 0x13 => 7
  | _ => let f := fpFmt t; (2 ^ f.expo - 1) * 2 ^ f.frac - 1

/-- The infinity pattern without its sign (R66). -/
def infPat (t : Nat) : Nat := let f := fpFmt t; (2 ^ f.expo - 1) * 2 ^ f.frac

/-- The canonical NaN (R66): .e2m1 has none. -/
def nanPat (t : Nat) : Nat :=
  match t with
  | 0x11 => 0x7F
  | 0x13 => 0
  | 0x15 => 0x1FF_0000
  | _ => infPat t + 2 ^ ((fpFmt t).frac - 1)

/-- The sign bit of a pattern. -/
def signPat (t : Nat) (neg : Bool) : Nat := if neg then 2 ^ ((fpFmt t).frac + (fpFmt t).expo) else 0

/-- The value of a pattern (R66, R73). -/
def decodeFp (t bits : Nat) : Fl :=
  let f := fpFmt t
  let neg := bits / 2 ^ (f.frac + f.expo) % 2 == 1
  let e := bits / 2 ^ f.frac % 2 ^ f.expo
  let m := bits % 2 ^ f.frac
  if t = 0x11 ∧ e = 15 ∧ m = 7 then .nan false
  else if t ≠ 0x11 ∧ t ≠ 0x13 ∧ e = 2 ^ f.expo - 1 then
    if m = 0 then .inf neg else .nan (decide (m < 2 ^ (f.frac - 1)))
  else if e = 0 then
    .fin neg (if t = 0x15 then 0 else m) (1 - (f.bias : Int) - f.frac)
  else .fin neg (2 ^ f.frac + m) ((e : Int) - f.bias - f.frac)

/-- n · 2^k for k of either sign, truncated. -/
def shiftZ (n : Nat) (k : Int) : Nat := if 0 ≤ k then n * 2 ^ k.toNat else n / 2 ^ (-k).toNat

/-- m · 2^e rounded to a multiple of 2^q, ties to even or towards zero: the multiple, and whether it is inexact. -/
def roundAt (m : Nat) (e q : Int) (rz : Bool) : Nat × Bool :=
  if q ≤ e then (m * 2 ^ (e - q).toNat, false)
  else
    let d := 2 ^ (q - e).toNat
    let n := m / d
    let r := m % d
    let up := !rz && (decide (d < 2 * r) || (decide (2 * r = d) && n % 2 == 1))
    (if up then n + 1 else n, r != 0)

/-- What an overflow gives (R67, R69). -/
def overPat (t : Nat) (neg rz sat : Bool) : Nat :=
  match t with
  | 0x11 => if rz || sat then signPat t neg + maxFin t else 0x7F
  | 0x12 => signPat t neg + (if rz || sat then maxFin t else infPat t)
  | 0x13 => signPat t neg + maxFin t
  | _ => signPat t neg + (if rz then maxFin t else infPat t)

/-- A value rounded once into a type (R67 to R69): the pattern and the status bits. -/
def roundFp (t : Nat) (rz sat : Bool) (x : Fl) : Nat × Nat :=
  match x with
  | .nan sg => (nanPat t, if t = 0x13 ∨ sg then stNV else 0)
  | .inf neg =>
    match t with
    | 0x11 => (if sat then signPat t neg + maxFin t else 0x7F, stNV)
    | 0x12 => if sat then (signPat t neg + maxFin t, stOF) else (signPat t neg + infPat t, 0)
    | 0x13 => (signPat t neg + maxFin t, stNV)
    | _ => (signPat t neg + infPat t, 0)
  | .fin neg m e =>
    if m = 0 then (signPat t neg, 0) else
    let f := fpFmt t
    let emin : Int := 1 - f.bias
    let E : Int := m.log2 + e
    let q : Int := max (E - f.frac) (emin - f.frac)
    let (n, ix) := roundAt m e q rz
    let (n0, _) := roundAt m e (E - f.frac) rz
    let tiny := decide (E < emin) && decide (shiftZ n0 (E - emin) < 2 ^ f.frac)
    let expo : Int := q + f.frac + f.bias
    let pat := if n < 2 ^ f.frac then n else (n - 2 ^ f.frac) + expo.toNat * 2 ^ f.frac
    if maxFin t < pat then (overPat t neg rz sat, stOF ||| stNX)
    else (signPat t neg + pat, (if ix then stNX else 0) ||| (if ix && tiny then stUF else 0))

/-- The negation of a value. -/
def Fl.neg : Fl → Fl
  | .fin n m e => .fin (!n) m e
  | .inf n => .inf (!n)
  | x => x

def Fl.isNan : Fl → Bool | .nan _ => true | _ => false
def Fl.isSig : Fl → Bool | .nan s => s | _ => false
def Fl.isZero : Fl → Bool | .fin _ 0 _ => true | _ => false
def Fl.isNeg : Fl → Bool | .fin n _ _ => n | .inf n => n | .nan _ => false

/-- NV for a signalling operand (R67). -/
def sigNV (xs : List Fl) : Nat := if xs.any Fl.isSig then stNV else 0

/-- A dyadic as an integer multiple of 2^q, for q at most its exponent. -/
def dyInt (neg : Bool) (m : Nat) (e q : Int) : Int :=
  let v : Int := (m * 2 ^ (e - q).toNat : Nat)
  if neg then -v else v

/-- An integer multiple of 2^q as a value; zero is +0. -/
def ofDy (v q : Int) : Fl := .fin (decide (v < 0)) v.natAbs q

/-- The exact sum of values (R67): the sum, and NV for opposed infinities. NaN operands propagate; that a NaN beside opposed infinities
sets no NV is the model's choice (log 110). -/
def sumFl (xs : List Fl) : Fl × Nat :=
  if xs.any Fl.isNan then (.nan false, 0)
  else
    let pinf := xs.any (fun x => x == .inf false)
    let ninf := xs.any (fun x => x == .inf true)
    if pinf && ninf then (.nan false, stNV)
    else if pinf then (.inf false, 0)
    else if ninf then (.inf true, 0)
    else
      let q := xs.foldl (fun (q : Int) x => match x with | .fin _ _ e => min q e | _ => q) 0
      let v := xs.foldl (fun (a : Int) x => match x with | .fin n m e => a + dyInt n m e q | _ => a) 0
      if v = 0 then (.fin (!xs.isEmpty && xs.all (fun x => x.isZero && x.isNeg)) 0 0, 0) else (ofDy v q, 0)

/-- The exact product; zero times infinity is the NaN with NV (R153). -/
def mulFl (x y : Fl) : Fl × Nat :=
  match x, y with
  | .nan _, _ => (.nan false, 0)
  | _, .nan _ => (.nan false, 0)
  | .inf a, .inf b => (.inf (a != b), 0)
  | .inf a, .fin b m _ => if m = 0 then (.nan false, stNV) else (.inf (a != b), 0)
  | .fin a m _, .inf b => if m = 0 then (.nan false, stNV) else (.inf (a != b), 0)
  | .fin a m e, .fin b n f => (.fin (a != b) (m * n) (e + f), 0)

/-- x · 2^n. -/
def scaleFl (x : Fl) (n : Int) : Fl := match x with | .fin s m e => .fin s m (e + n) | _ => x

/-- Comparison of finite or infinite values: -1, 0 or 1; -0 equals +0. -/
def cmpFl (x y : Fl) : Int :=
  let key := fun (z : Fl) (q : Int) => match z with
    | .fin n m e => dyInt n m e q
    | .inf true => -1
    | .inf false => 1
    | .nan _ => 0
  match x, y with
  | .inf a, .inf b => if a = b then 0 else if a then -1 else 1
  | .inf a, _ => if a then -1 else 1
  | _, .inf b => if b then 1 else -1
  | .fin _ _ e, .fin _ _ f =>
    let q := min e f
    let a := key x q
    let b := key y q
    if a < b then -1 else if a = b then 0 else 1
  | _, _ => 0

/-- Order of R154: -0 below +0. -/
def ltFl (x y : Fl) : Bool :=
  let c := cmpFl x y
  decide (c < 0) || (decide (c = 0) && x.isNeg && !y.isNeg)

/-- FMIN or FMAX on patterns (R154): the pattern chosen, and NV. -/
def minMaxFp (t : Nat) (mx : Bool) (a b : Nat) : Nat × Nat :=
  let x := decodeFp t a
  let y := decodeFp t b
  let nv := sigNV [x, y]
  if x.isNan && y.isNan then (nanPat t, nv)
  else if x.isNan then (b, nv)
  else if y.isNan then (a, nv)
  else if mx then (if ltFl x y then b else a, nv)
  else (if ltFl y x then b else a, nv)

/-- The integer part of the square root of n, by bits from 2^i down. -/
def isqrtGo (n : Nat) : Nat → Nat → Nat
  | 0, r => r
  | i + 1, r => let c := r + 2 ^ i; isqrtGo n i (if c * c ≤ n then c else r)

def isqrt (n : Nat) : Nat := isqrtGo n (n.log2 / 2 + 1) 0

/-- A quotient of dyadics with at least 80 bits, and a last bit for what is cut off. -/
def divFin (neg : Bool) (m : Nat) (e : Int) (n : Nat) (f : Int) : Fl :=
  let k := n.log2 + 80
  let q := m * 2 ^ k / n
  let st := if m * 2 ^ k % n = 0 then 0 else 1
  .fin neg (2 * q + st) (e - f - k - 1)

/-- 1/√x for x = m · 2^e above 0, with a last bit for what is cut off. -/
def rsqrtFin (m : Nat) (e : Int) : Fl :=
  let (m, e) := if e % 2 = 0 then (m, e) else (2 * m, e - 1)
  let k := m.log2 + 80
  let x := 2 ^ (2 * k)
  let r := isqrt (x / m)
  let st := if r * r * m = x then 0 else 1
  .fin false (2 * r + st) (-(e / 2) - k - 1)

/-- The product of 2^(2^-i) over the set bits of a fraction, most significant first, in fixed point of 320 bits: `root` is
2^(2^-(i-1)) so far. -/
def exp2Go : Nat → Nat → Nat → Nat → Nat
  | 0, _, _, acc => acc
  | n + 1, fr, root, acc =>
    if fr = 0 then acc else
    let root := isqrt (root * 2 ^ 320)
    let fr2 := 2 * fr
    if 2 ^ 160 ≤ fr2 then exp2Go n (fr2 - 2 ^ 160) root (acc * root / 2 ^ 320) else exp2Go n fr2 root acc

/-- 2^x for a finite x, with a last bit for what is cut off. Magnitudes from 2^11 up stand for any larger. -/
def exp2Fin (neg : Bool) (m : Nat) (e : Int) : Fl :=
  if m = 0 then .fin false 1 0
  else if 11 ≤ (m.log2 : Int) + e then (if neg then .fin false 1 (-4096) else .fin false 1 4096)
  else
    let v : Int := let a : Int := shiftZ m (e + 160); if neg then -a else a
    let i := v / 2 ^ 160
    let fr := (v % 2 ^ 160).toNat
    if fr = 0 then .fin false 1 i
    else .fin false (2 * exp2Go 160 fr (2 * 2 ^ 320) (2 ^ 320) + 1) (i - 321)

/-- Fraction bits of log2 y for y in [1, 2) as fixed point of 640 bits, by squaring. -/
def log2Go : Nat → Nat → Nat → Nat
  | 0, _, acc => acc
  | n + 1, y, acc =>
    let z := y * y / 2 ^ 640
    if 2 ^ 641 ≤ z then log2Go n (z / 2) (2 * acc + 1) else log2Go n z (2 * acc)

/-- log2 of m · 2^e above 0. -/
def log2Fin (m : Nat) (e : Int) : Fl :=
  let l := m.log2
  let i : Int := l + e
  if m = 2 ^ l then ofDy i 0
  else
    let y := m * 2 ^ 640 / 2 ^ l
    let v : Int := i * 2 ^ 128 + log2Go 128 y 0
    if 0 ≤ v then .fin false (2 * v.toNat + 1) (-129) else .fin true (2 * (v.natAbs - 1) + 1) (-129)

/-- Division of values under IEEE 754 rules (used by MERGE, R418): the quotient and NV or DZ. -/
def divFl (x y : Fl) : Fl × Nat :=
  match x, y with
  | .nan _, _ => (.nan false, 0)
  | _, .nan _ => (.nan false, 0)
  | .inf _, .inf _ => (.nan false, stNV)
  | .inf a, .fin b _ _ => (.inf (a != b), 0)
  | .fin a _ _, .inf b => (.fin (a != b) 0 0, 0)
  | .fin a m e, .fin b n f =>
    if n = 0 then (if m = 0 then (.nan false, stNV) else (.inf (a != b), 0))
    else if m = 0 then (.fin (a != b) 0 0, 0)
    else (divFin (a != b) m e n f, 0)

/-- A value rounded to an integer: the integer, and whether it is inexact (R65, R72). -/
def roundInt (rz neg : Bool) (m : Nat) (e : Int) : Int × Bool :=
  let (n, ix) := roundAt m e 0 rz
  (if neg then -(n : Int) else n, ix)

/-- The smallest and largest value of an integer type of width w (R64). -/
def intMin (signed : Bool) (w : Nat) : Int := if signed then -(2 ^ (w - 1) : Nat) else 0
def intMax (signed : Bool) (w : Nat) : Int := if signed then (2 ^ (w - 1) : Nat) - 1 else (2 ^ w : Nat) - 1

/-- Sat and SatN (R64): the clamped value, and whether it clamped. -/
def clampInt (signed : Bool) (w : Nat) (v : Int) : Int × Bool :=
  if v > intMax signed w then (intMax signed w, true)
  else if v < intMin signed w then (intMin signed w, true)
  else (v, false)

/-- An integer as w bits, wrapping (R64). -/
def wrapInt (w : Nat) (v : Int) : Nat := (v % (2 ^ w : Nat)).toNat

/-- A w-bit pattern as the integer of its type (R64). -/
def toInt (signed : Bool) (w x : Nat) : Int :=
  if signed && decide (2 ^ (w - 1) ≤ x) then (x : Int) - (2 ^ w : Nat) else x

/-- A conversion of a value to an integer type (R65): NV when it clamps or is no number. -/
def flToInt (signed : Bool) (w : Nat) (rz : Bool) (x : Fl) : Nat × Nat :=
  match x with
  | .nan _ => (0, stNV)
  | .inf neg => (wrapInt w (if neg then intMin signed w else intMax signed w), stNV)
  | .fin neg m e =>
    if m = 0 then (0, 0) else
    if 200 ≤ (m.log2 : Int) + e then (wrapInt w (if neg then intMin signed w else intMax signed w), stNV)
    else
      let (v, ix) := roundInt rz neg m e
      let (c, cl) := clampInt signed w v
      (wrapInt w c, (if ix then stNX else 0) ||| (if cl then stNV else 0))

/-- An integer as an exact value. -/
def intFl (v : Int) : Fl := ofDy v 0

/-- Signed value of a normal .q4x slot (R70). -/
def slotVal (n : Nat) : Fl := intFl (toInt true 4 n)

/-- DecodeQuad (R71): the four values, and for each element whether its own case is malformed. -/
def decodeQuad (q : Nat) : List (Fl × Bool) :=
  let s0 := q % 16
  let s1 := q / 16 % 16
  let s2 := q / 256 % 16
  let s3 := q / 4096 % 16
  let norm := fun n : Nat => if n = 8 then (Fl.fin false 0 0, true) else (slotVal n, false)
  if s0 = 8 then
    let e := s2 * 16 + s1
    let v0 := if e % 128 = 0x7F then (Fl.fin false 0 0, true) else (decodeFp 0x11 e, false)
    [v0, (.fin false 0 0, false), (.fin false 0 0, false), norm s3]
  else [(slotVal s0, false), norm s1, norm s2, norm s3]

/-- A slot of a quad other than an escape (R72): the code and the status bits. That an infinite or NaN element which is not lost sets NV
alone, without the NX of step 4, is the model's choice (log 109). -/
def encodeSlot (rz : Bool) (x : Fl) : Nat × Nat :=
  match x with
  | .nan _ => (0, stNV)
  | .inf neg => (if neg then 9 else 7, stNV)
  | .fin neg m e =>
    if m = 0 then (0, 0) else
    if 100 ≤ (m.log2 : Int) + e then (if neg then 9 else 7, stSAT ||| stNX)
    else
      let (v, ix) := roundInt rz neg m e
      if 7 < v then (7, stSAT ||| stNX)
      else if v < -7 then (9, stSAT ||| stNX)
      else (wrapInt 4 v, if ix then stNX else 0)

/-- Whether element 4m takes the escape (R72). -/
def takesEscape (rz : Bool) (x : Fl) : Bool :=
  match x with
  | .nan _ => false
  | .inf _ => true
  | .fin neg m e =>
    if m = 0 then false
    else if 100 ≤ (m.log2 : Int) + e then true
    else decide (7 < (roundInt rz neg m e).1.natAbs)

/-- Encoding of four exact values into a quad (R72): the 16 bits and the status bits; for infinities and NaNs as `encodeSlot` (log
109). -/
def encodeQuad (rz : Bool) (x0 x1 x2 x3 : Fl) : Nat × Nat :=
  let (c3, f3) := encodeSlot rz x3
  if takesEscape rz x0 then
    let (e, f0) := match x0 with
      | .inf neg => (if neg then 0xFE else 0x7E, stNV)
      | _ =>
        let (p, f) := roundFp 0x11 rz true x0
        (p, if f &&& stOF = 0 then f &&& stNX else stSAT ||| stNX)
    let lost := fun x : Fl => match x with
      | .fin _ m _ => if m = 0 then 0 else stNX
      | _ => stNX ||| stNV
    (8 + 16 * (e % 16) + 256 * (e / 16) + 4096 * c3, f0 ||| lost x1 ||| lost x2 ||| f3)
  else
    let (c0, f0) := encodeSlot rz x0
    let (c1, f1) := encodeSlot rz x1
    let (c2, f2) := encodeSlot rz x2
    (c0 + 16 * c1 + 256 * c2 + 4096 * c3, f0 ||| f1 ||| f2 ||| f3)

/-- RoundF26 (R73): the pattern and SCO, or SCU and UF. -/
def roundF26 (x : Fl) : Nat × Nat :=
  match x with
  | .nan _ => (nanPat 0x15, 0)
  | .inf neg => (signPat 0x15 neg + infPat 0x15, 0)
  | .fin neg m e =>
    if m = 0 then (signPat 0x15 neg, 0) else
    let E : Int := m.log2 + e
    let (n, _) := roundAt m e (E - 17) false
    let (n, E) := if n = 2 ^ 18 then (2 ^ 17, E + 1) else (n, E)
    if 128 ≤ E then (signPat 0x15 neg + infPat 0x15, stSCO)
    else if E < -126 then (signPat 0x15 neg, stSCU ||| stUF)
    else (signPat 0x15 neg + (E + 127).toNat * 2 ^ 17 + (n - 2 ^ 17), 0)

/-- ChunkSum (R74): the FP26 pattern and the status bits; `inv` tells that a product was infinity times zero. That opposed infinities
set no NV in a chunk which also holds an operand NaN, and that a partial which is NaN already counts as such an operand, are the model's
choices (log 110). -/
def chunkSum (ts : List Fl) (inv : Bool) : Nat × Nat :=
  let pinf := ts.any (fun x => x == .inf false)
  let ninf := ts.any (fun x => x == .inf true)
  if ts.any Fl.isNan || (pinf && ninf) then
    (nanPat 0x15, if inv || (pinf && ninf && !ts.any Fl.isNan) then stNV else 0)
  else if pinf then (infPat 0x15, 0)
  else if ninf then (signPat 0x15 true + infPat 0x15, 0)
  else
    let emax := ts.foldl (fun (a : Option Int) x => match x with
      | .fin _ m e => if m = 0 then a else some (match a with | none => m.log2 + e | some b => max b (m.log2 + e))
      | _ => a) none
    match emax with
    | none => (signPat 0x15 (!ts.isEmpty && ts.all Fl.isNeg), 0)
    | some em =>
      let q := em - 40
      let parts := ts.map (fun x => match x with
        | .fin n m e =>
          let v := if q ≤ e then (m * 2 ^ (e - q).toNat, false) else (m / 2 ^ (q - e).toNat, m % 2 ^ (q - e).toNat != 0)
          ((if n then -(v.1 : Int) else v.1), v.2)
        | _ => (0, false))
      let sm := parts.foldl (fun (a : Int) p => a + p.1) 0
      let sticky := parts.any Prod.snd
      if sm = 0 then (signPat 0x15 (ts.all (fun x => x.isZero && x.isNeg)), 0)
      else
        let mag := sm.natAbs * 2 ^ 24 + (if sticky then 1 else 0)
        roundF26 (.fin (decide (sm < 0)) mag (q - 24))

/-- Promotion of one element (R85): the FP26 partial added to the FP32 image. -/
def promoteEl (img part : Nat) : Nat × Nat :=
  let x := decodeFp 0x10 img
  let y := decodeFp 0x15 part
  let (z, f) := sumFl [x, y]
  let (p, g) := roundFp 0x10 false false z
  (p, f ||| g ||| sigNV [x])

end Sys2Proof.Machine
end

