-- ==== Sys2Proof/Machine/Tile.lean ====
section
/-! DEFINITION. Scaled tiles (04 R75 to R83): scale entries, CRC, decoding, loads and the quantiser. A tile is its payload
bytes and its 128-bit entry as a number. -/

namespace Sys2Proof.Machine

/-- The payload type of an element-format code 1 to 8 (R75). -/
def codeType (code : Nat) : Nat :=
  match code with
  | 1 => 0x00
  | 2 => 0x14
  | 3 => 0x13
  | 4 => 0x01
  | 5 => 0x11
  | 6 => 0x12
  | 7 => 0x0F
  | _ => 0x0E

/-- The element-format code of an MMA type (R206). -/
def typeCode (t : Nat) : Nat :=
  match t with
  | 0x00 => 1
  | 0x14 => 2
  | 0x13 => 3
  | 0x01 => 4
  | 0x11 => 5
  | 0x12 => 6
  | 0x0F => 7
  | _ => 8

/-- Payload width in bits, and payload bytes of a tile (R75). -/
def codeWidth (code : Nat) : Nat := if code ≤ 3 then 4 else if code ≤ 6 then 8 else 16
def payloadBytes (code : Nat) : Nat := 32 * codeWidth code

/-- A tile record: payload and entry (R214). -/
def recordBytes (code : Nat) : Nat := payloadBytes code + 16

/-- emax_p (R75). -/
def emaxP (code : Nat) : Int :=
  match code with
  | 4 => 6
  | 5 => 8
  | 6 => 15
  | _ => 2

/-- One byte through the CRC-16/CCITT, most significant bit first (R77). -/
def crc16Byte (crc b : Nat) : Nat :=
  (List.range 8).foldl (fun c _ =>
    let c2 := c * 2 % 0x10000
    if 0x8000 ≤ c then c2 ^^^ 0x1021 else c2) (crc ^^^ (b * 256))

/-- CRC-16/CCITT with initial value 0xFFFF (R77). -/
def crc16 (bs : List Byte) : Nat := bs.foldl (fun c b => crc16Byte c b.toNat) 0xFFFF

/-- The CRC of a tile: payload and entry bytes 0 to 9 (R77). -/
def tileCrc (payload : List Byte) (entry : Nat) : Nat := crc16 (payload ++ leBytes 10 entry)

def entE (e : Nat) : Nat := e % 256
def entValid (e : Nat) : Bool := e / 256 % 2 == 1
def entRx (e i : Nat) : Nat := e / 2 ^ (16 + 2 * i) % 4
def entCx (e j : Nat) : Nat := e / 2 ^ (48 + 2 * j) % 4
def entSeq (e : Nat) : Nat := e / 2 ^ 96

/-- Well-formed (R78). -/
def tileOk (payload : List Byte) (entry : Nat) : Bool :=
  entValid entry && entry / 2 ^ 9 % 128 == 0 && entry / 2 ^ 80 % 2 ^ 16 == tileCrc payload entry

/-- A NaN tile of codes 1 to 6 (R78). -/
def nanTile (code entry : Nat) : Bool := decide (code ≤ 6) && entE entry == 0xFF

/-- Raw element n of a payload (R75). -/
def elemRaw (code : Nat) (payload : List Byte) (n : Nat) : Nat :=
  match codeWidth code with
  | 4 => (payload.getD (n / 2) 0).toNat / 16 ^ (n % 2) % 16
  | 8 => (payload.getD n 0).toNat
  | _ => leNat [payload.getD (2 * n) 0, payload.getD (2 * n + 1) 0]

/-- The decoded payload element n (R79): its value, and whether its case is malformed (R71). -/
def elemVal (code : Nat) (payload : List Byte) (n : Nat) : Fl × Bool :=
  if code = 2 then
    let q := leNat [payload.getD (n / 4 * 2) 0, payload.getD (n / 4 * 2 + 1) 0]
    (decodeQuad q).getD (n % 4) (.fin false 0 0, false)
  else
    let t := codeType code
    let r := elemRaw code payload n
    if isFp t then (decodeFp t r, false) else (intFl (toInt true (tyWidth t) r), false)

/-- The scale exponent (R79): s − 127, and whether it was clamped. -/
def scaleExp (entry i j : Nat) : Int × Bool :=
  let s : Int := (entE entry : Int) - entRx entry i - entCx entry j
  if s < 1 then (-126, true) else (s - 127, false)

/-- Value(i, j) of a well-formed tile whose payload holds it as element `n` (R79, R210): the exact value, SCU when the clamp
applied, and whether the element is malformed. A NaN tile gives the NaN. -/
def tileValAt (code : Nat) (payload : List Byte) (entry n i j : Nat) : Fl × Nat × Bool :=
  if nanTile code entry then (.nan false, 0, false)
  else
    let (v, bad) := elemVal code payload n
    if 7 ≤ code then (v, 0, bad)
    else
      let (k, cl) := scaleExp entry i j
      let hit := match v with | .fin _ m _ => cl && m != 0 | _ => false
      (scaleFl v k, if hit then stSCU else 0, bad)

/-- Value(i, j) of a dense tile (R75, R79). -/
def tileVal (code : Nat) (payload : List Byte) (entry i j : Nat) : Fl × Nat × Bool :=
  tileValAt code payload entry (16 * i + j) i j

/-- Element (i, j) loaded into a target type (R80, R277): the pattern and MDF, SCO, SCU. -/
def tileLoad (t code : Nat) (payload : List Byte) (entry i j : Nat) : Nat × Nat :=
  if !tileOk payload entry then (0, stMDF)
  else
    let (v, f, bad) := tileVal code payload entry i j
    let f := f ||| (if bad then stMDF else 0)
    match v with
    | .fin _ m _ =>
      let (p, g) := roundFp t false false v
      let sp := if g &&& stOF ≠ 0 then stSCO else if m != 0 && p % 2 ^ (tyWidth t - 1) == 0 then stSCU else 0
      (p, f ||| sp)
    | x => ((roundFp t false false (match x with | .nan _ => .nan false | y => y)).1, f)

/-- floor(log2 |x|) of a nonzero value. -/
def flExp (x : Fl) : Option Int :=
  match x with
  | .fin _ m e => if m = 0 then none else some (m.log2 + e)
  | _ => none

/-- The largest of the exponents of nonzero values. -/
def maxExp (xs : List Fl) : Option Int :=
  xs.foldl (fun (a : Option Int) x => match a, flExp x with
    | none, b => b
    | a, none => a
    | some u, some v => some (max u v)) none

/-- Payload bytes from raw elements. -/
def packElems (code : Nat) (es : List Nat) : List Byte :=
  match codeWidth code with
  | 4 => leBytes 128 ((es.zip (List.range 256)).foldl (fun a p => a + p.1 % 16 * 16 ^ p.2) 0)
  | 8 => es.map (fun x => BitVec.ofNat 8 x)
  | _ => es.flatMap (fun x => leBytes 2 x)

/-- One element through Encode for codes other than .q4x (R83): raw pattern and status; the float formats under R69 with .sat, whose over
values set OF and NX. That the clamp of R83 which sets SAT is that of .i4 and .i8 alone is the model's reading (log 111). -/
def encodeEl (code : Nat) (y : Fl) : Nat × Nat :=
  let t := codeType code
  if isFp t then roundFp t false true y
  else
    match y with
    | .fin neg m e =>
      if 100 ≤ (m.log2 : Int) + e then (wrapInt (tyWidth t) (if neg then intMin true (tyWidth t) else intMax true (tyWidth t)), stSAT ||| stNX)
      else
        let (v, ix) := roundInt false neg m e
        let (c, cl) := clampInt true (tyWidth t) v
        (wrapInt (tyWidth t) c, (if ix || cl then stNX else 0) ||| (if cl then stSAT else 0))
    | _ => (0, 0)

/-- The entry of a tile from its fields, with its CRC and SEQ (R76, R77). -/
def mkEntry (payload : List Byte) (e : Nat) (rx cx : List Nat) (seq : Nat) : Nat :=
  let pk := fun (l : List Nat) => (l.zip (List.range 16)).foldl (fun a p => a + p.1 * 4 ^ p.2) 0
  let lo := e + 256 + pk rx * 2 ^ 16 + pk cx * 2 ^ 48
  lo + tileCrc payload lo * 2 ^ 80 + seq % 2 ^ 32 * 2 ^ 96

/-- Quads encoded in order. -/
def encodeQuads : List Fl → List Nat × Nat
  | x0 :: x1 :: x2 :: x3 :: xs =>
    let (q, f) := encodeQuad false x0 x1 x2 x3
    let (qs, g) := encodeQuads xs
    (q % 16 :: q / 16 % 16 :: q / 256 % 16 :: q / 4096 % 16 :: qs, f ||| g)
  | _ => ([], 0)

/-- Quantise (R82, R83): 256 FP32 patterns in row order into payload and entry for the given new SEQ, with the status bits. -/
def quantise (xs : List Nat) (code seq : Nat) : List Byte × Nat × Nat :=
  let vs := xs.map (decodeFp 0x10)
  let zero := List.replicate (payloadBytes code) (0 : Byte)
  let z16 := List.replicate 16 0
  let t16 := List.replicate 16 3
  if vs.any (fun v => match v with | .fin .. => false | _ => true) then
    (zero, mkEntry zero 0xFF z16 z16 seq, stNV)
  else match maxExp vs with
    | none => (zero, mkEntry zero 0 t16 t16 seq, 0)
    | some a =>
      let eraw : Int := a - emaxP code + 127
      let e : Nat := if eraw < 1 then 1 else eraw.toNat
      let f0 := if eraw < 1 then stSCU else 0
      let row := fun i => (List.range 16).map (fun j => vs.getD (16 * i + j) (.fin false 0 0))
      let rx := (List.range 16).map (fun i => match maxExp (row i) with
        | none => 3
        | some b => min 3 (a - b).toNat)
      let cx := (List.range 16).map (fun j =>
        (List.range 16).foldl (fun (c : Nat) i => match flExp (vs.getD (16 * i + j) (.fin false 0 0)) with
          | none => c
          | some b => min c (a - (rx.getD i 0 : Nat) - b).toNat) 3)
      let ys := (List.range 256).map (fun n =>
        let i := n / 16
        let j := n % 16
        let s : Int := (e : Int) - rx.getD i 0 - cx.getD j 0
        scaleFl (vs.getD n (.fin false 0 0)) (-((if s < 1 then 1 else s) - 127)))
      let (els, f) := if code = 2 then encodeQuads ys
        else ys.foldr (fun y acc => let r := encodeEl code y; (r.1 :: acc.1, r.2 ||| acc.2)) ([], 0)
      let p := packElems code els
      (p, mkEntry p e rx cx seq, f0 ||| f)

/-- A unit-scaled tile of codes 7 and 8 (R82, R222). -/
def unitTile (xs : List Nat) (code seq : Nat) : List Byte × Nat × Nat :=
  let r := xs.map (fun x => roundFp (codeType code) false false (decodeFp 0x10 x))
  let p := packElems code (r.map Prod.fst)
  let z16 := List.replicate 16 0
  (p, mkEntry p 0 z16 z16 seq, r.foldl (fun a x => a ||| x.2) 0)

/-- The tile that the drain path or STT forms from 256 FP32 patterns. -/
def formTile (xs : List Nat) (code seq : Nat) : List Byte × Nat × Nat :=
  if code ≤ 6 then quantise xs code seq else unitTile xs code seq

/-- The table of CRC-32C by byte is not needed: one byte through the reflected polynomial 0x82F63B78 (R209). -/
def crc32cByte (crc b : Nat) : Nat :=
  (List.range 8).foldl (fun c _ => if c % 2 = 1 then c / 2 ^^^ 0x82F6_3B78 else c / 2) (crc ^^^ b)

/-- CRC-32C (R209). -/
def crc32c (bs : List Byte) : Nat := bs.foldl (fun c b => crc32cByte c b.toNat) 0xFFFF_FFFF ^^^ 0xFFFF_FFFF

end Sys2Proof.Machine
end

