-- ==== Sys2Proof/Machine/Windows.lean ====
section
/-! DEFINITION. The regions of a core window that are no memory (10 R234, R235; 17 R395, R396): vector registers, cursors,
accumulators, weight buffer and control block, byte by byte, and the promotion of a tile (04 R85, 03 R56). -/

namespace Sys2Proof.Machine

/-- The 128 bits of a cursor (R44). -/
def Cursor.word (c : Cursor) : BitVec 128 :=
  BitVec.ofNat 128 (c.ldti.toNat * 2 ^ 120 + c.kind.toNat * 2 ^ 117 + c.done.toNat * 2 ^ 116 + c.app.toNat * 2 ^ 115
    + c.valid.toNat * 2 ^ 114 + c.pos.toNat * 2 ^ 64 + c.ub.toNat * 2 ^ 32 + c.coord.toNat)

/-- A cursor from its 128 bits; FIB is not among them. -/
def Cursor.ofNat (x fib : Nat) : Cursor :=
  { ldti := BitVec.ofNat 8 (x / 2 ^ 120), kind := BitVec.ofNat 3 (x / 2 ^ 117), done := x.testBit 116, app := x.testBit 115
    valid := x.testBit 114, pos := BitVec.ofNat 32 (x / 2 ^ 64), ub := BitVec.ofNat 32 (x / 2 ^ 32)
    coord := BitVec.ofNat 32 x, fib := BitVec.ofNat 32 fib }

/-- Byte `i` of a number. -/
def byteAt (x i : Nat) : Byte := BitVec.ofNat 8 (x / 256 ^ i)

/-- A number with byte `i` replaced. -/
def withByte (x i : Nat) (b : Byte) : Nat := x - x / 256 ^ i % 256 * 256 ^ i + b.toNat * 256 ^ i

/-- Element key of a tile. -/
def elKey (i j : Nat) : Nat := 64 * i + j

/-- The elements of a tile whose image or partial is not +0; the others are left as they are by promotion. -/
def Tile.live (t : Tile) : List Nat := (t.img.map Prod.fst ++ t.part.map Prod.fst).dedup

/-- Element `e` of a tile as a read finds it, promoted (R56, R85), with the status bits. -/
def Tile.elem (t : Tile) (e : Nat) : Nat × Nat := promoteEl (Tbl.get 0 t.img e).toNat (Tbl.get 0 t.part e).toNat

/-- Promotion of a whole tile (R85): image, partial to +0, CNT to 0; the status bits. -/
def Tile.promote (t : Tile) : Tile × Nat :=
  let (img, f) := t.live.foldl (fun (acc : Tbl Word32 × Nat) e =>
    (Tbl.set 0 acc.1 e (BitVec.ofNat 32 (t.elem e).1), acc.2 ||| (t.elem e).2)) (t.img, 0)
  ({ t with img := img, part := [], cnt := 0 }, f)

def Core.tile (c : Core) (k : Nat) : Tile := Tbl.get {} c.mat.tiles k
def State.onTile (s : State) (k a : Nat) (f : Tile → Tile) : State :=
  s.onMat k (fun m => { m with tiles := Tbl.upd {} m.tiles a f })

/-- Promotion of tile `a` of core `k` (R56), with its status bits (R85). -/
def State.promoteTile (s : State) (k a : Nat) : State × Nat :=
  let r := ((s.core k).tile a).promote
  (s.onTile k a (fun _ => r.1), r.2)

/-- Sections of a team. -/
def Team.sections (t : Team) : Nat := t.id.lanes / 32

/-- The team of a core that holds vector register row `row`, with lane 0 of the section and the register (R235). -/
def Core.vregOwner (c : Core) (row : Nat) : Option (Nat × Nat × Nat) :=
  (List.range 16).findSome? (fun i =>
    let t := c.team i
    if t.st ≠ 0 ∧ t.id.rb ≤ row ∧ row < t.id.rb + t.id.budget * t.sections then
      some (i, 32 * ((row - t.id.rb) / t.id.budget), (row - t.id.rb) % t.id.budget)
    else none)

/-- The team of a core that holds a lane of the lane base order, with the lane (R235). -/
def Core.laneOwner (c : Core) (n : Nat) : Option (Nat × Nat) :=
  (List.range 16).findSome? (fun i =>
    let t := c.team i
    if t.st ≠ 0 ∧ t.id.lb ≤ n ∧ n < t.id.lb + t.id.lanes then some (i, n - t.id.lb) else none)

/-- Words of the control block (R245, R352, R172, R343, R201, R57). -/
def Guard.word (g : Guard) : Nat :=
  g.v.toNat * 2 ^ 63 + g.bar % 32 * 2 ^ 58 + g.src % 256 * 2 ^ 50 + g.last % 2 ^ 22 * 2 ^ 22 + g.base % 2 ^ 22

def Bar.word (b : Bar) : Nat :=
  b.arrm.foldl (fun a i => a ||| 2 ^ (48 + i)) 0 + b.stat % 8 * 2 ^ 45 + b.phase.toNat * 2 ^ 44 + b.count % 32 * 2 ^ 39
    + b.arr % 32 * 2 ^ 34 + b.drop % 32 * 2 ^ 29 + b.exp % 2 ^ 24

def Bar.ofWord (x : Nat) : Bar :=
  { arrm := (List.range 16).filter (fun i => x.testBit (48 + i)), stat := natBits x 45 3, phase := x.testBit 44
    count := natBits x 39 5, arr := natBits x 34 5, drop := natBits x 29 5, exp := natBits x 0 24 }

def Ldt.ctl (e : Ldt) : Nat := e.lv.toNat * 2 ^ 15 + e.hv.toNat * 2 ^ 8 + e.heap % 16 * 16 + e.hold % 16
def Ldt.withCtl (e : Ldt) (x : Nat) : Ldt :=
  { e with lv := x.testBit 15, hv := x.testBit 8, heap := natBits x 4 4, hold := natBits x 0 4 }
def Pat.ctl (e : Pat) : Nat := e.lv.toNat * 2 ^ 15 + e.hold % 16
def Pat.withCtl (e : Pat) (x : Nat) : Pat := { e with lv := x.testBit 15, hold := natBits x 0 4 }
def Tile.ctl (t : Tile) : Nat := t.p % 128 * 64 + t.cnt % 64
def Tile.withCtl (t : Tile) (x : Nat) : Tile := { t with p := natBits x 6 7, cnt := natBits x 0 6 }

/-- WBSTAT (R57). -/
def Core.wbstat (c : Core) : Nat :=
  (List.range 8).foldl (fun a k =>
    let w := Tbl.get {} c.mat.slots k
    a + (w.load.toNat * 8 + w.valid.toNat * 4 + w.spar % 4) * 16 ^ k) 0

/-- The team status record (R396). -/
def Team.status (t : Team) : Nat :=
  t.path.pc.toNat * 2 ^ 448 + t.flt.fpc.toNat * 2 ^ 384 + t.id.gref.toNat * 2 ^ 320 + t.flt.handle.toNat * 2 ^ 288
    + t.id.rb % 4096 * 2 ^ 276 + t.id.lb % 2048 * 2 ^ 265 + t.st % 8 * 2 ^ 262 + t.flt.pf.toNat * 2 ^ 261
    + t.park.toNat * 2 ^ 260 + t.arrd.toNat * 2 ^ 259 + t.path.stack.length % 64 * 2 ^ 253
    + t.path.loops.length % 8 * 2 ^ 250 + t.id.tidx % 16 * 2 ^ 246 + t.id.role % 4 * 2 ^ 244 + t.id.budget % 128 * 2 ^ 237
    + t.id.tenant % 256 * 2 ^ 229 + countLanes t.id.lanes t.regs.rpm % 2048 * 2 ^ 218

/-- A team whose status record has been written by a privileged agent, as a restore writes it (R3, R234, R396): PF and ARRD, which no
restore writes, stay, and PARK is only cleared; the stack and loop depths can only be cut, and a PC keeps to the bits it has (R46). That
such a store sets STATE to whatever it carries, 6 and 7 included, is the model's choice (log 103). -/
def Team.withStatus (t : Team) (x : Nat) : Team :=
  { t with
    st := natBits x 262 3, park := t.park && x.testBit 260
    path := { t.path with pc := pcMask (BitVec.ofNat 64 (x / 2 ^ 448)), stack := t.path.stack.take (natBits x 253 6)
                          loops := t.path.loops.take (natBits x 250 3) }
    flt := { t.flt with fpc := pcMask (BitVec.ofNat 64 (x / 2 ^ 384)), handle := BitVec.ofNat 32 (x / 2 ^ 288) }
    id := { t.id with gref := BitVec.ofNat 64 (x / 2 ^ 320), rb := natBits x 276 12, lb := natBits x 265 11
                      tidx := natBits x 246 4, role := natBits x 244 2, budget := natBits x 237 7, tenant := natBits x 229 8 } }

/-- One item of the control block (R395) that holds byte `o`: its value, the byte within it, and the state after a change. The range
guard and WBSTAT name no writer but their copies and WBLD and WBINV, so a store leaves them (R3, R57, R245). -/
def controlItem (s : State) (k o : Nat) : Nat × Nat × (Nat → State) :=
  let c := s.core k
  if o < 0x400 then
    let i := o / 64
    ((c.team i).status, o % 64, fun x => s.onTeam k i (·.withStatus x))
  else if o < 0x480 then
    let i := (o - 0x400) / 8
    ((Tbl.get {} c.tabs.guard i).word, o % 8, fun _ => s)
  else if o < 0x580 then
    let i := (o - 0x480) / 8
    ((Tbl.get {} c.tabs.bars i).word, o % 8, fun x => s.onTabs k (fun t => { t with bars := Tbl.set {} t.bars i (Bar.ofWord x) }))
  else if o < 0x780 then
    let i := (o - 0x580) / 2
    ((Tbl.get {} c.tabs.ldt i).ctl, o % 2, fun x => s.onTabs k (fun t => { t with ldt := Tbl.upd {} t.ldt i (·.withCtl x) }))
  else if o < 0x7A0 then
    let i := (o - 0x780) / 2
    ((Tbl.get {} c.tabs.pats i).ctl, o % 2, fun x => s.onTabs k (fun t => { t with pats := Tbl.upd {} t.pats i (·.withCtl x) }))
  else if 0x800 ≤ o ∧ o < 0x820 then
    let i := (o - 0x800) / 2
    ((c.tile i).ctl, o % 2, fun x => s.onTile k i (·.withCtl x))
  else if 0x820 ≤ o ∧ o < 0x828 then (c.wbstat, o % 8, fun _ => s)
  else if 0x1000 ≤ o ∧ o < 0x5000 then
    let i := (o - 0x1000) / 64
    ((Tbl.get {} c.tabs.ldt i).img.toNat, o % 64,
      fun x => s.onTabs k (fun t => { t with ldt := Tbl.upd {} t.ldt i (fun e => { e with img := BitVec.ofNat 512 x }) }))
  else if 0x5000 ≤ o ∧ o < 0x5400 then
    let i := (o - 0x5000) / 64
    ((Tbl.get {} c.tabs.pats i).img.toNat, o % 64,
      fun x => s.onTabs k (fun t => { t with pats := Tbl.upd {} t.pats i (fun e => { e with img := BitVec.ofNat 512 x }) }))
  else (0, 0, fun _ => s)

/-- A byte of a window region, and whether it is uncorrectable (R234, R42). A register or cursor that no team holds reads zero. -/
def State.winByte (s : State) (r : Region) : Byte × Bool :=
  match r with
  | .vregs k o =>
    match (s.core k).vregOwner (o / 256) with
    | none => (0, false)
    | some (i, l0, v) =>
      let cell := Tbl.get {} (s.team k i).regs.v (1024 * v + (l0 + o % 256 / 8))
      (byteAt cell.val.toNat (o % 8), cell.pz)
  | .cursors k o =>
    match (s.core k).laneOwner (o / 128) with
    | none => (0, false)
    | some (i, l) =>
      let c := Tbl.get {} (s.team k i).regs.c (8 * l + o % 128 / 16)
      (byteAt c.word.toNat (o % 16), c.pz)
  | .accum k o =>
    let t := (s.core k).tile (o / 16384)
    let e := o % 16384 / 4
    (byteAt (t.elem e).1 (o % 4), Tbl.get false t.pz e)
  | .weights k o =>
    let w := Tbl.get {} (s.core k).mat.slots (o / 0x2_0000)
    (Tbl.get 0 w.data (o % 0x2_0000), false)
  | .control k o =>
    let it := controlItem s k o
    (byteAt it.1 it.2.1, false)
  | _ => (0, false)

/-- A byte written to a window region; `bad`: it arrives uncorrectable, `first`: it is the first byte written of its word. A
register's poison bit is set or cleared by the word's bytes together (R42, R235); a cursor so written has no fibre index (R185). -/
def State.winPut (s : State) (r : Region) (b : Byte) (bad first : Bool) : State :=
  match r with
  | .vregs k o =>
    match (s.core k).vregOwner (o / 256) with
    | none => s
    | some (i, l0, v) =>
      s.onTeam k i (Team.onRegs · (fun g => { g with v := Tbl.upd {} g.v (1024 * v + (l0 + o % 256 / 8)) (fun c =>
        { val := BitVec.ofNat 64 (withByte c.val.toNat (o % 8) b), pz := bad || (c.pz && !first) }) }))
  | .cursors k o =>
    match (s.core k).laneOwner (o / 128) with
    | none => s
    | some (i, l) =>
      s.onTeam k i (Team.onRegs · (fun g => { g with c := Tbl.upd {} g.c (8 * l + o % 128 / 16) (fun c =>
        { Cursor.ofNat (withByte c.word.toNat (o % 16) b) 0xFFFF_FFFF with pz := bad || (c.pz && !first) }) }))
  | .accum k o =>
    s.onTile k (o / 16384) (fun t =>
      let e := o % 16384 / 4
      { t with img := Tbl.set 0 t.img e (BitVec.ofNat 32 (withByte (Tbl.get 0 t.img e).toNat (o % 4) b))
               pz := Tbl.set false t.pz e (bad || (Tbl.get false t.pz e && !first)) })
  | .control k o =>
    let it := controlItem s k o
    it.2.2 (withByte it.1 it.2.1 b)
  | _ => s

/-- What a read of window bytes changes before it: their tiles are promoted (R56); the status bits of the promotions (R85). -/
def State.promoteFor (s : State) (bs : List PByte) : State × Nat :=
  let tiles := (bs.filterMap (fun b => match b.dev with
    | some _ => none
    | none => match regionOf s.ddr b.pa with | .accum k o => some (k, o / 16384) | _ => none)).dedup
  tiles.foldl (fun (a : State × Nat) t => let r := a.1.promoteTile t.1 t.2; (r.1, a.2 ||| r.2)) (s, 0)

end Sys2Proof.Machine
end

