-- ==== Sys2Proof/Machine/Mem.lean ====
section
/-! DEFINITION. Accesses to memory: translation (15 R335 to R341), scaled pages (10 R247), the L1 (R240), the range guard
(R245, R246), the checks of a lane access (12 R275) and its effect (R276 to R281). -/

namespace Sys2Proof.Machine

/-- Why an access faults: fault code (17 R379), reason and page of a translation fault, code met of a format fault, address.
`raw`: DETAIL is `val` as it stands; `walked`: a walk of the page ended so. -/
structure AccErr where
  code : Nat
  reason : Nat := 0
  page : Nat := 0
  val : Nat := 0
  addr : Nat := 0
  raw : Bool := false
  walked : Bool := false
deriving DecidableEq, Repr

/-! Fields of a page table entry (R337). -/
def pteV (e : Nat) : Bool := e.testBit 0
def pteLeaf (e : Nat) : Bool := e.testBit 1
def pteRd (e : Nat) : Bool := e.testBit 5
def pteW (e : Nat) : Bool := e.testBit 6
def pteX (e : Nat) : Bool := e.testBit 7
def pteSize (e : Nat) : Nat := natBits e 10 2
def pteAddr (e : Nat) : Nat := natBits e 12 40 * 4096
def pteTenant (e : Nat) : Nat := natBits e 56 8
def pteTier (e : Nat) : Nat := natBits e 64 2
def pteRemote (e : Nat) : Bool := e.testBit 66
def pteDev (e : Nat) : Nat := natBits e 67 8
def pteKind (e : Nat) : Nat := natBits e 75 2
def pteSwz (e : Nat) : Nat := natBits e 77 2
def pteGw (e : Nat) : Nat := natBits e 79 4
def pteFmt (e : Nat) : Nat := natBits e 83 4
def pteSframe (e : Nat) : Nat := natBits e 87 41 * 2048

/-- Tiles of a scaled page of a format code (R247), and log2 of that. -/
def pageTiles (code : Nat) : Nat := 65536 / payloadBytes code
def pageTilesLog (code : Nat) : Nat := (pageTiles code).log2

/-- Bytes of a leaf (R337). -/
def leafBytes (sz : Nat) : Nat := match sz with | 0 => 0x1_0000 | 1 => 0x20_0000 | _ => 0x4000_0000

/-- First byte of the capsule mirror (R330). -/
def mirrorBase (ddr : Nat) : Nat := 0x100_0000_0000 + ddr - 0x400_0000

/-- Whether a frame lies wholly in the range that TIER names, and outside the capsule mirror (R338). -/
def frameOk (ddr tier base size : Nat) : Bool :=
  match tier with
  | 0 => decide (base + size ≤ 0x80_0000_0000)
  | 1 => decide (0x100_0000_0000 ≤ base ∧ base + size ≤ 0x100_0000_0000 + ddr)
    && (ddr == 0 || decide (base + size ≤ mirrorBase ddr))
  | 2 => decide (0xF00_0000_0000 ≤ base ∧ base + size ≤ 0xF01_8000_0000)
  | _ => decide (0x8_0000_0000_0000 ≤ base ∧ base + size ≤ 0x10_0000_0000_0000)

/-- A malformed entry (R338), without regard to a format code above 8. -/
def pteMalformed (ddr e lvl : Nat) : Bool :=
  let sz := leafBytes (pteSize e)
  let f := pteFmt e
  natBits e 52 4 != 0 || natBits e 8 2 != 0 || natBits e 2 3 != 0 || pteKind e == 3 || pteSize e == 3
  || (!pteLeaf e && (e / 2 ^ 64 != 0 || pteSize e != 0 || pteX e || pteW e || pteRd e || natBits e 12 3 != 0))
  || (pteLeaf e && decide (lvl ≤ 1)) || (!pteLeaf e && lvl == 3)
  || (pteLeaf e && lvl == 3 && pteSize e == 2) || (pteLeaf e && lvl == 2 && decide (pteSize e ≤ 1))
  || (pteLeaf e && (pteAddr e % sz != 0
      || (f != 0 && pteSize e != 0)
      || (f != 0 && decide (f ≤ 8) && (decide (pageTilesLog f < pteGw e) || pteSframe e % (16 * pageTiles f) != 0))
      || (f == 0 && (pteSframe e != 0 || pteGw e != 0))
      || (f != 0 && pteSwz e != 0)
      || (!pteRemote e && !frameOk ddr (pteTier e) (pteAddr e) sz)))

/-- How a walk ends. -/
inductive WalkEnd where
  | leaf (e : Nat)
  | fail (reason : Nat)
  | badFmt (code : Nat)
deriving DecidableEq, Repr

/-- Where the entry of a level lies that a walk reads (R335). -/
def pteAt (va lvl tbl : Nat) : Nat := tbl + 16 * natBits va (49 - 11 * lvl) 11

/-- The levels of a walk from a table on (R335, R340). `kept lvl pa`: a non-leaf entry that the device keeps and uses in the place of
the one at `pa` (R341). -/
def walkFrom (m : Memory) (ddr va : Nat) (kept : Nat → Nat → Option Nat) : List Nat → Nat → WalkEnd
  | [], _ => .fail 3
  | lvl :: rest, tbl =>
    let pa := pteAt va lvl tbl
    match kept lvl pa with
    | some e => walkFrom m ddr va kept rest (pteAddr e)
    | none =>
      if m.unc pa 16 then .fail 5 else
      let e := m.readLe pa 16
      if !pteV e then .fail 0
      else if pteMalformed ddr e lvl then .fail 3
      else if pteLeaf e then (if 8 < pteFmt e then .badFmt (pteFmt e) else .leaf e)
      else walkFrom m ddr va kept rest (pteAddr e)

/-- The valid, well-formed non-leaf entries that such a walk passes, with their levels. -/
def walkTables (m : Memory) (ddr va : Nat) (kept : Nat → Nat → Option Nat) : List Nat → Nat → List (Nat × Nat)
  | [], _ => []
  | lvl :: rest, tbl =>
    let pa := pteAt va lvl tbl
    let e := (kept lvl pa).getD (m.readLe pa 16)
    if pteLeaf e || !pteV e || pteMalformed ddr e lvl then [] else (lvl, e) :: walkTables m ddr va kept rest (pteAddr e)

/-- The entries that such a walk reads in memory (R374). `uses lvl e`: it takes the non-leaf entry from the device's own copy. -/
def walkSteps (m : Memory) (ddr va : Nat) (kept : Nat → Nat → Option Nat) (uses : Nat → Nat → Bool) : List Nat → Nat → Nat
  | [], _ => 0
  | lvl :: rest, tbl =>
    let pa := pteAt va lvl tbl
    match kept lvl pa with
    | some e => walkSteps m ddr va kept uses rest (pteAddr e)
    | none =>
      let e := m.readLe pa 16
      if m.unc pa 16 || pteLeaf e || !pteV e || pteMalformed ddr e lvl then 1
      else (!uses lvl e).toNat + walkSteps m ddr va kept uses rest (pteAddr e)

/-- The level-0 table of a tenant, if it has one (R336). -/
def State.rootOf (s : State) (tenant : Nat) : Option Nat :=
  let r := Tbl.get 0 s.io.roots tenant
  if tenant = 0xFF ∨ !r.getLsbD 63 then none else some (r.toNat / 2 ^ 15 % 2 ^ 37 * 2 ^ 15)

/-- A fresh walk for a tenant (R336). -/
def State.walk (s : State) (tenant va : Nat) : WalkEnd :=
  match s.rootOf tenant with
  | none => .fail 0
  | some r => walkFrom s.mem s.ddr va (fun _ _ => none) [0, 1, 2, 3] r

/-- Whether a leaf serves an access: 0 yes, else the reason (R339). -/
def leafReason (tenant e : Nat) (rd wr x : Bool) : Nat :=
  if pteTenant e ≠ tenant then 2
  else if (rd && !pteRd e) || (wr && !pteW e) || (x && !pteX e) then 1 else 0

/-- What a core's TLBs, its own and its die's, hold for an address (R341): leaves, or the non-leaf entries of one level. -/
def TlbEntry.covers (t : TlbEntry) (tenant va : Nat) : Bool :=
  t.tenant == tenant && decide (t.vpn ≤ va / 65536 ∧ va / 65536 < t.vpn + t.pages)
def State.heldAt (s : State) (k tenant va : Nat) : List TlbEntry :=
  ((s.core k).tabs.tlb ++ (s.die (dieOfCore k)).tlb).filter (fun t => t.covers tenant va)
def State.held (s : State) (k tenant va : Nat) : List Nat :=
  ((s.heldAt k tenant va).map (fun t => t.leaf.toNat)).filter pteLeaf

/-- Pages that a non-leaf entry of a level covers (R335). -/
def tablePages (lvl : Nat) : Nat := 2 ^ (33 - 11 * lvl)

/-- The non-leaf entry of a level that a walk of core `k` uses in the place of another one in memory (R341): one that is kept, if the
device still keeps it and uses it. -/
def State.keptTable (s : State) (k tenant va lvl pa : Nat) : Option Nat :=
  ((s.heldAt k tenant va).find? (fun t => !pteLeaf t.leaf.toNat && t.pages == tablePages lvl
    && (s.mem.unc pa 16 || s.mem.readLe pa 16 != t.leaf.toNat)
    && Config.pick s.seq (2 ^ 46 * (lvl + 1) + va / 65536))).map (fun t => t.leaf.toNat)

/-- A walk on behalf of core `k`. -/
def State.walkAs (s : State) (k tenant va : Nat) : WalkEnd :=
  match s.rootOf tenant with
  | none => .fail 0
  | some r => walkFrom s.mem s.ddr va (s.keptTable k tenant va) [0, 1, 2, 3] r

/-- Whether a leaf sends its accesses to this device by name (R414) and its frame lies outside the range of TIER, which that device
checks against its own map (R338). That such an entry counts as malformed here is the model's choice (log 104). -/
def State.homeTierBad (s : State) (e : Nat) : Bool :=
  pteRemote e && pteDev e == s.io.domidx && !frameOk s.ddr (pteTier e) (pteAddr e) (leafBytes (pteSize e))

/-- The leaf for an access of core `k` (R339, R341): a held translation that differs from the walk may be used while it serves. -/
def State.translate (s : State) (k tenant va : Nat) (rd wr x : Bool) : Except AccErr Nat :=
  let page := va / 65536 % 2 ^ 44
  if 2 ^ 60 ≤ va then .error { code := 0x12, reason := 4, page }
  else
    let fresh := s.walkAs k tenant va
    let useHeld := (s.held k tenant va).find? (fun e =>
      fresh != .leaf e && leafReason tenant e rd wr x == 0 && Config.pick s.seq (20000000 + page))
    match useHeld with
    | some e => .ok e
    | none =>
      match fresh with
      | .fail r => .error { code := 0x12, reason := r, page, walked := true }
      | .badFmt c => .error { code := 0x04, page, val := c, walked := true }
      | .leaf e =>
        let r := if s.homeTierBad e then 3 else leafReason tenant e rd wr x
        if r = 0 then .ok e else .error { code := 0x12, reason := r, page, walked := true }

/-- Entries that the TLB of a core and that of a C-die hold at most (R334). -/
def coreTlbSize : Nat := 2048
def dieTlbSize : Nat := 32768

/-- A TLB of a size that has taken in a translation, newest first (R341). -/
def tlbPut (e : TlbEntry) (t : List TlbEntry) : List TlbEntry := if t.contains e then t else e :: t
def tlbAdd (size tenant va leaf : Nat) (tables : List (Nat × Nat)) (t : List TlbEntry) : List TlbEntry :=
  let put := fun (n e : Nat) (t : List TlbEntry) =>
    tlbPut { tenant, vpn := va / 65536 / n * n, pages := n, leaf := BitVec.ofNat 128 e } t
  (put (leafBytes (pteSize leaf) / 65536) leaf (tables.foldr (fun x t => put (tablePages x.1) x.2 t) t)).take size

/-- The translations of an address that a TLB has dropped because the leaf's tenant or permission did not serve (R341). -/
def tlbDrop (tenant va : Nat) (keep : TlbEntry → Bool) (t : List TlbEntry) : List TlbEntry :=
  t.filter (fun e => !(e.covers tenant va && pteLeaf e.leaf.toNat) || keep e)
def State.tlbDropAt (s : State) (k tenant va : Nat) (keep : TlbEntry → Bool) : State :=
  let s := s.onTabs k (fun t => { t with tlb := tlbDrop tenant va keep t.tlb })
  s.onDie (dieOfCore k) (fun d => { d with tlb := tlbDrop tenant va keep d.tlb })

/-- Whether a TLB holds a translation for a page. -/
def tlbHas (tenant va : Nat) (t : List TlbEntry) : Bool := t.any (fun e => e.covers tenant va && pteLeaf e.leaf.toNat)

/-- The steps of a walk on behalf of core `k`: of the non-leaf entries that the device keeps it may use any (R341). -/
def State.walkSteps (s : State) (k tenant va : Nat) : Nat :=
  match s.rootOf tenant with
  | none => 0
  | some r =>
    Machine.walkSteps s.mem s.ddr va (s.keptTable k tenant va) (fun lvl e =>
      (s.heldAt k tenant va).any (fun t => t.leaf.toNat == e && t.pages == tablePages lvl) &&
        Config.pick s.seq (2 ^ 47 * (lvl + 1) + va / 65536)) [0, 1, 2, 3] r

/-- A translation by core `k` counted: a miss of its TLB, and where it walks the steps (R374). `again`: it walks although an entry is
held, which does not serve (R341). -/
def State.countWalk (s : State) (k tenant va : Nat) (again : Bool) : State :=
  let missCore := !tlbHas tenant va (s.core k).tabs.tlb
  let missDie := missCore && !tlbHas tenant va (s.die (dieOfCore k)).tlb
  let steps := if missDie || again then s.walkSteps k tenant va else 0
  (s.count k 13 tenant missCore.toNat).count k 14 tenant steps

/-- A translation of a page that failed after a walk: what the TLBs hold of the page did not serve, and is dropped (R341). -/
def State.dropPage (s : State) (k tenant page : Nat) : State :=
  (s.countWalk k tenant (page * 65536) true).tlbDropAt k tenant (page * 65536) (fun _ => false)

/-- The same before an engine's fault is raised. -/
def State.dropFailedAt (s : State) (k tenant : Nat) (e : AccErr) : State :=
  if e.walked then s.dropPage k tenant e.page else s

/-- Whether a held leaf gives every permission that another one gives. -/
def TlbEntry.gives (tenant leaf : Nat) (e : TlbEntry) : Bool :=
  let x := e.leaf.toNat
  pteTenant x == tenant && (pteRd x || !pteRd leaf) && (pteW x || !pteW leaf) && (pteX x || !pteX leaf)

/-- Held entries that an access passed over for want of a permission that the leaf it used gives are dropped (R341). -/
def State.dropPassed (s : State) (k tenant va leaf : Nat) : State := s.tlbDropAt k tenant va (·.gives tenant leaf)

/-- A translation used by core `k` enters its TLB and its die's, the non-leaf entries of its walk the die's; an entry that was passed
over is dropped (R341); a miss and the steps of its walk are counted (R374). -/
def State.noteTlb (s : State) (k tenant va leaf : Nat) : State :=
  let passed := (s.heldAt k tenant va).any (fun e => pteLeaf e.leaf.toNat && !e.gives tenant leaf)
  let missDie := !tlbHas tenant va (s.core k).tabs.tlb && !tlbHas tenant va (s.die (dieOfCore k)).tlb
  let tables := if missDie then (match s.rootOf tenant with
    | some r => walkTables s.mem s.ddr va (s.keptTable k tenant va) [0, 1, 2, 3] r
    | none => []) else []
  let s := (s.countWalk k tenant va passed).dropPassed k tenant va leaf
  let s := s.onTabs k (fun t => { t with tlb := tlbAdd coreTlbSize tenant va leaf [] t.tlb })
  s.onDie (dieOfCore k) (fun d => { d with tlb := tlbAdd dieTlbSize tenant va leaf tables d.tlb })

/-- Swz (R239). -/
def swz (mode o : Nat) : Nat :=
  match mode with
  | 1 => o ^^^ (natBits o 7 3 * 16)
  | 2 => o ^^^ (natBits o 8 4 * 16)
  | 3 => o ^^^ (natBits o 9 5 * 16)
  | _ => o

/-- The physical address under a leaf (R339). -/
def leafPa (e va : Nat) : Nat :=
  let off := va % leafBytes (pteSize e)
  pteAddr e + (if pteSize e = 0 then swz (pteSwz e) off else off)

/-- The device a leaf sends its accesses to; its own index is this device (R414). -/
def State.leafDev (s : State) (e : Nat) : Option Nat :=
  if pteRemote e && pteDev e != s.io.domidx then some (pteDev e) else none

def State.pbyte (s : State) (e va : Nat) : PByte := { dev := s.leafDev e, pa := leafPa e va }

/-- The region of a byte here; a byte of another device counts as memory. -/
def State.region (s : State) (b : PByte) : Region :=
  match b.dev with
  | some _ => .hbm
  | none => regionOf s.ddr b.pa

/-- Whether a byte exists: no hole, and a route to its device (R230, R414). -/
def State.exists_ (s : State) (b : PByte) : Bool :=
  match b.dev with
  | some d => Tbl.get 0 s.io.routes d != 0
  | none => regionOf s.ddr b.pa != .hole

/-! The caches of a core hold as many lines as their sizes allow (01 R10). -/
def l1Lines : Nat := 2048
def metaLines : Nat := 1024
def iLines : Nat := 1024

/-- A line filled in a cache; a full cache first gives up a line that the spec does not choose (log 7). -/
def fillLine (cap seq cache : Nat) (t : Tbl Line) (ln : Nat) (l : Line) : Tbl Line :=
  let full := decide (cap ≤ t.length) && !(t.any (fun e => e.1 == ln))
  let gone := (t.getD (Config.victim seq cache % t.length) (ln, {})).1
  Tbl.set {} (if full then Tbl.erase gone t else t) ln l

/-! The L1 (R240). -/

/-- The 128 bytes of a line at its home. -/
def State.homeLine (s : State) (ln : Nat) : List Byte := s.mem.read (128 * ln) 128

/-- A line that the L1 serves: present, and not evicted since. A line equal to its home needs no choice. -/
def State.l1Line (s : State) (k ln : Nat) : Option Line :=
  let l := Tbl.get {} (s.core k).tabs.l1 ln
  if l.data = [] then none
  else if l.data = s.homeLine ln then some l
  else if Config.evicted s.seq ln then none else some l

def State.onL1 (s : State) (k : Nat) (f : Tbl Line → Tbl Line) : State := s.onTabs k (fun t => { t with l1 := f t.l1 })

/-- Whether a byte may be held by an L1: local HBM and DDR only. -/
def State.cacheable (s : State) (b : PByte) : Bool :=
  b.dev.isNone && (match regionOf s.ddr b.pa with | .hbm | .ddr => true | _ => false)

/-- The L1 after a load of a line: a miss fills with HINT default, .lu leaves the line invalid; an uncorrectable line is not held. -/
def State.l1Touch (s : State) (k kind hint ln : Nat) : State :=
  match s.l1Line k ln with
  | some _ =>
    let s := s.count k 6 s.tm.id.tenant 1
    if hint = 2 then s.onL1 k (fun t => Tbl.erase ln t) else s
  | none =>
    let s := s.count k 7 s.tm.id.tenant 1
    if hint = 0 && !s.mem.unc (128 * ln) 128 then
      s.onL1 k (fun t => fillLine l1Lines s.seq 1 t ln { data := s.homeLine ln, tag := kind })
    else s.onL1 k (fun t => Tbl.erase ln t)

/-- Lines of the L1 of core `k` invalidated at these bytes. -/
def State.l1Drop (s : State) (k : Nat) (bs : List PByte) : State :=
  let lns := ((bs.filter (fun b => b.dev.isNone)).map (fun b => b.pa / 128)).dedup
  s.onL1 k (fun t => lns.foldl (fun t ln => Tbl.erase ln t) t)

/-- An acquire of CLUSTER or wider on core `k`: every RC line goes, and for a FENCE every UN line too (R262). -/
def State.l1Acquire (s : State) (k scope : Nat) (fence : Bool) : State :=
  if scope ≤ 2 then s
  else s.onL1 k (fun t => t.filter (fun e => e.2.tag = 0 ∨ (e.2.tag = 2 ∧ !fence)))

/-- What the capsule mirror adds to a byte of the DDR tier (R330): its encrypted image, over which memory keeps what was written since. A
leaf's frame cannot reach it (R338), a scale frame can. -/
def State.mirrorAt (s : State) (pa : Nat) : Byte :=
  if s.ddr ≠ 0 ∧ mirrorBase s.ddr ≤ pa then Config.mirrorByte (s.ctrl.mirror.map (·.2.serial)) pa else 0

/-- A byte as core `k` reads it under a kind, and whether it arrives uncorrectable (R233, R240, R415). -/
def State.seeByte (s : State) (k kind : Nat) (b : PByte) : Byte × Bool :=
  match b.dev with
  | some d => (Config.remoteByte s.seq d b.pa, Config.remoteFails s.seq d b.pa || s.io.down.contains d)
  | none =>
    match regionOf s.ddr b.pa with
    | .hbm | .ddr =>
      let home := (s.mem.byte b.pa ^^^ s.mirrorAt b.pa, s.mem.isBad b.pa)
      if kind = 0 then home else
      match s.l1Line k (b.pa / 128) with
      | some l => (l.data.getD (b.pa % 128) 0, false)
      | none => home
    | .scratch .. => (s.mem.byte b.pa, s.mem.isBad b.pa)
    | .host o => (Config.hostByte s.seq o, Config.hostFails s.seq o)
    | .hole => (0, false)
    | r => s.winByte r

/-- A byte at its place, past every cache: what engines, walkers and atomics read. -/
def State.homeByte (s : State) (b : PByte) : Byte × Bool := s.seeByte 0 0 b

/-- Bytes read together: the bytes, and whether any arrives uncorrectable. -/
def State.seeBytes (s : State) (k kind : Nat) (bs : List PByte) : List Byte × Bool :=
  let r := bs.map (s.seeByte k kind)
  (r.map Prod.fst, r.any Prod.snd)

/-- What reads of an instruction change: L1 lines touched, tiles of window regions promoted with the promotions' status bits (R56,
R85, R240). -/
def State.readTouch (s : State) (k kind hint : Nat) (bs : List PByte) : State :=
  let s := if kind = 0 then s else
    ((bs.filter s.cacheable).map (fun b => b.pa / 128)).dedup.foldl (fun s ln => s.l1Touch k kind hint ln) s
  let r := s.promoteFor bs
  r.1.stat r.2

/-- The function that carries a tenant's accesses to the host (R403, R405): the lowest VF bound to it, else the PF. -/
def State.hostFn (s : State) (tenant : Nat) : Nat :=
  match (List.range 16).find? (fun k =>
    let w := Tbl.get 0 s.io.vfb k
    w.getLsbD 63 && decide (natBits w.toNat 55 8 = tenant)) with
  | some k => k + 1
  | none => 0

/-- Something leaves for a device on a virtual channel (R412, R414): it waits at the lowest port that leads there. -/
def State.sendOn (s : State) (f : OutFlit) : State :=
  match (List.range 16).find? (fun i => (Tbl.get 0 s.io.routes f.dev).getLsbD i) with
  | none => s
  | some n => { s with ports := Tbl.upd {} s.ports n (fun p => { p with queued := p.queued ++ [f] }) }

/-- A request leaves for device `d` with its tenant and class (R412, R414). -/
def State.sendRequest (s : State) (tenant cls d : Nat) : State := s.sendOn { vc := if cls = 0 then 0 else 2, dev := d, tenant, cls }

/-- The PASID that a function's requests carry: the one it is bound with; none through the PF (R403, R405). -/
def State.pasidOf (s : State) (fn : Nat) : Option Nat :=
  if fn = 0 then none else some (natBits (Tbl.get 0 s.io.vfb (fn - 1)).toNat 34 20)

/-- What a tenant's accesses leave at the I/O dies: requests to other devices; for the host window, the request with its function and
PASID, ATS entries, and one error when the host refuses (R405). -/
def State.outTouch (s : State) (tenant cls : Nat) (bs : List PByte) : State :=
  let s := ((bs.filterMap (·.dev)).dedup).foldl (fun s d => s.sendRequest tenant cls d) s
  let os := bs.filterMap (fun b => match b.dev with
    | some _ => none
    | none => match regionOf s.ddr b.pa with | .host o => some o | _ => none)
  if os.isEmpty then s
  else
    let fn := s.hostFn tenant
    let pages := ((os.map (· / 4096)).dedup.map (fun p => (fn, p))).filter (fun e => !s.io.ats.contains e)
    let ats := if Config.atsOn fn then (pages ++ s.io.ats).take 2048 else s.io.ats
    let errs := if os.any (Config.hostFails s.seq) then Tbl.upd 0 s.io.fnErrs fn (· + 1) else s.io.fnErrs
    { s with io := { s.io with ats := ats, fnErrs := errs, hostReqs := s.io.hostReqs ++ [(fn, s.pasidOf fn, os)] } }

/-- A byte written at its place: memory, a window region, the host; a byte of another device leaves this one. -/
def State.putByte (s : State) (b : PByte) (x : Byte) (bad first : Bool) : State :=
  match b.dev with
  | some _ => s
  | none =>
    match regionOf s.ddr b.pa with
    | .hbm | .ddr => s.onMem (fun m => { m with bytes := Tbl.set 0 m.bytes b.pa (x ^^^ s.mirrorAt b.pa) })
    | .scratch .. => s.onMem (fun m => { m with bytes := Tbl.set 0 m.bytes b.pa x })
    | .host o =>
      if Config.hostFails s.seq o then s else { s with io := { s.io with hostOut := s.io.hostOut ++ [(o, x)] } }
    | .hole => s
    | r => s.winPut r x bad first

/-- Granules of memory that a list of bytes covers wholly (R233). -/
def coveredGranules (bs : List PByte) : List Nat :=
  let pas := (bs.filter (fun b => b.dev.isNone)).map (fun b => b.pa)
  ((pas.map granuleOf).dedup).filter (fun g => (List.range (granuleSize g)).all (fun i => pas.contains (g + i)))

/-- The first byte of the register, cursor or element that a window byte lies in (R235). -/
def wordStart (r : Region) (pa : Nat) : Nat :=
  let u := match r with | .cursors .. => 16 | .accum .. => 4 | _ => 8
  pa / u * u

/-- Bytes put at their places in order, each with its value and whether it arrives uncorrectable. What a write leaves of a register's
poison is decided over all its bytes of that register, so each is told whether it is the first of them (R42). -/
def State.putItems : State → List Nat → List (PByte × Byte × Bool) → State
  | s, _, [] => s
  | s, seen, (b, x, bad) :: rest =>
    match s.region b with
    | .vregs .. | .cursors .. | .accum .. =>
      let w := wordStart (s.region b) b.pa
      (s.putByte b x bad (!seen.contains w)).putItems (w :: seen) rest
    | _ => (s.putByte b x bad true).putItems seen rest

/-- Bytes written as one write: whole granules become correct, then granules of uncorrectable bytes are marked (R233, R290). -/
def State.putBytes (s : State) (bs : List PByte) (xs : List Byte) (bads : List Bool) : State :=
  let items := (bs.zip (xs.zip (bads ++ List.replicate bs.length false)))
  let s := s.putItems [] items
  let s := s.onMem (fun m => { m with bad := (coveredGranules bs).foldl (fun t g => Tbl.set false t g false) m.bad })
  items.foldl (fun s it =>
    if it.2.2 && it.1.dev.isNone && (regionOf s.ddr it.1.pa).plain then s.onMem (fun m => m.spoil it.1.pa) else s) s

/-- A byte stored through the L1 of core `k`: a present line is updated in place (R240). -/
def State.l1Update (s : State) (k : Nat) (b : PByte) (x : Byte) : State :=
  if s.cacheable b then
    s.onL1 k (fun t =>
      let l := Tbl.get {} t (b.pa / 128)
      if l.data = [] then t else Tbl.set {} t (b.pa / 128) { l with data := l.data.set (b.pa % 128) x })
  else s

/-- Bytes stored through the L1 of core `k` (R240); granules covered wholly become correct (R233). -/
def State.storeBytes (s : State) (k : Nat) (bs : List PByte) (xs : List Byte) : State :=
  (bs.zip xs).foldl (fun s e => s.l1Update k e.1 e.2) (s.putBytes bs xs [])

/-! The range guard (R246). -/

/-- The range-guard entries that hold a copy in flight over a byte: core, entry, and the core and number of the copy. -/
def State.guardsAt (s : State) (b : PByte) : List (Nat × Nat × Nat × Nat) :=
  match b.dev with
  | some _ => []
  | none =>
    match regionOf s.ddr b.pa with
    | .scratch k o =>
      ((s.core k).tabs.guard.filter (fun e => e.2.v && decide (e.2.base ≤ o ∧ o < e.2.last))).map
        (fun e => (k, e.1, e.2.src, e.2.copy))
    | _ => []

/-- Whether a scratchpad byte lies in an entry of its core that holds a copy in flight. -/
def State.guarded (s : State) (b : PByte) : Bool := !(s.guardsAt b).isEmpty

/-- Whether such an entry still holds that copy. -/
def State.stillGuards (s : State) (g : Nat × Nat × Nat × Nat) : Bool :=
  let e := Tbl.get {} (s.core g.1).tabs.guard g.2.1
  e.v && e.src == g.2.2.1 && e.copy == g.2.2.2

/-- A byte of the scratchpad of core `k`. -/
def scratchByte (k o : Nat) : PByte := { pa := winBase k + o }

/-- A byte of a group's allocation (R236). -/
def Group.sByte (g : Group) (k o : Nat) : PByte := scratchByte k (g.base + o)
def Group.sBytes (g : Group) (k o n : Nat) : List PByte := (List.range n).map (fun i => g.sByte k (o + i))

/-! Checks of one lane's access (R275). -/

/-- What a checked access is to do. -/
structure Want where
  rd : Bool := true
  wr : Bool := false
  atom : Bool := false
  natural : Bool := false
  scaledTy : Option Nat := none
  scaledBad : Bool := true
deriving DecidableEq, Repr

/-- A checked access: bytes, kind, the scaled leaf (0 none), and the leaves used with an address of each. -/
structure Checked where
  bytes : List PByte := []
  kind : Nat := 1
  scaled : Nat := 0
  leaves : List (Nat × Nat) := []
deriving DecidableEq, Repr

/-- Whether a privileged agent may reach a window region (R234). -/
def windowOk (prv wr : Bool) (r : Region) : Bool :=
  match r with
  | .accum .. | .vregs .. | .cursors .. | .control .. => prv
  | .weights .. => prv && !wr
  | _ => true

/-- Whether a region lies in a core window other than the scratchpad; such an access, and one of the host window, is SO
(R234, R269). -/
def Region.forcesSo (r : Region) : Bool :=
  match r with
  | .accum .. | .vregs .. | .cursors .. | .control .. | .weights .. | .host .. => true
  | _ => false

/-- The element of a scaled page at an offset (R277). -/
def scaledAt (s : State) (leaf off : Nat) : ElemAt :=
  let c := pteFmt leaf
  let n := match codeWidth c with | 4 => 2 * off | 8 => off | _ => off / 2
  { code := c, dev := s.leafDev leaf, pay := pteAddr leaf + n / 256 * payloadBytes c
    ent := pteSframe leaf + 16 * (n / 256), n := n % 256 }

/-- The element of a scaled page at an offset, or the alignment fault (R277). -/
def scaledElem (s : State) (leaf off : Nat) : Except AccErr ElemAt :=
  if codeWidth (pteFmt leaf) = 16 ∧ off % 2 ≠ 0 then .error { code := 0x15 } else .ok (scaledAt s leaf off)

/-- The bytes that an access to an element of a tile reaches: payload and entry (R76, R244). -/
def ElemAt.reach (e : ElemAt) : List PByte :=
  (List.range (payloadBytes e.code)).map (fun i => { dev := e.dev, pa := e.pay + i }) ++
    (List.range 16).map (fun i => { dev := e.dev, pa := e.ent + i })

/-- Why bytes may not be reached at their places: a hole or a device without a route (R230, R414), or a window region (R234). -/
def State.placeErr (s : State) (prv wr : Bool) (bs : List PByte) : Option AccErr :=
  if bs.any (fun b => !s.exists_ b) then some { code := 0x13 }
  else if bs.any (fun b => !windowOk prv wr (s.region b)) then some { code := 0x18 } else none

/-- What an access to an address of a leaf reaches: its byte, or the tile of its element. -/
def State.placeOf (s : State) (leaf ea : Nat) : List PByte :=
  if pteFmt leaf = 0 then [s.pbyte leaf ea] else (scaledAt s leaf (ea % 65536)).reach

/-- The ordering kind of an access that reaches these bytes (R234, R269). -/
def State.kindOf (s : State) (kind : Nat) (bs : List PByte) : Nat := if bs.any (fun b => (s.region b).forcesSo) then 0 else kind

/-- A .s access of `w` bytes at offset `ea` (R236). -/
def State.checkS (s : State) (ea w : Nat) (q : Want) : Except AccErr Checked :=
  let g := s.grpOf
  if g.size < ea + w then .error { code := 0x14 }
  else if q.natural && ea % w != 0 then .error { code := 0x15 }
  else .ok { bytes := g.sBytes s.ck ea w }

/-- A .g access of `w` bytes at address `ea`: one fault, the first in the order of R275. -/
def State.checkG (s : State) (ea w : Nat) (q : Want) : Except AccErr Checked := do
  let k := s.ck
  let tenant := s.tm.id.tenant
  let va := fun i => (ea + i) % 2 ^ 64
  let wr := q.wr || q.atom
  let l0 ← s.translate k tenant ea q.rd wr false
  let two := va (w - 1) / 65536 ≠ ea / 65536
  let l1 ← if two then s.translate k tenant (va (w - 1)) q.rd wr false else pure l0
  let leafOf := fun i => if va i / 65536 = ea / 65536 then l0 else l1
  let bytes := (List.range w).map (fun i => s.pbyte (leafOf i) (va i))
  let sc := pteFmt l0 ≠ 0 || pteFmt l1 ≠ 0
  let reach := bytes ++ (if pteFmt l0 ≠ 0 then (scaledAt s l0 (ea % 65536)).reach else [])
  if let some e := s.placeErr s.tm.id.prv wr reach then throw e
  if q.atom && bytes.any (fun b => match s.region b with | .host _ => true | _ => false) then throw { code := 0x17 }
  if sc && (q.scaledBad || two || q.scaledTy.isNone) then throw { code := 0x16 }
  if q.natural && ea % w != 0 then throw { code := 0x15 }
  if sc then do
    let _ ← scaledElem s l0 (ea % 65536)
  pure { bytes, kind := s.kindOf (min (pteKind l0) (pteKind l1)) reach, scaled := if sc then l0 else 0
         leaves := if two then [(ea, l0), (va (w - 1), l1)] else [(ea, l0)] }

/-- Whether a byte would set a reserved bit of a cursor in the cursor region (R44, R235). -/
def State.cursorReserved (s : State) (b : PByte) (x : Byte) : Bool :=
  match s.region b with
  | .cursors _ o =>
    let i := o % 16
    ((i == 12 || i == 13) && x != 0) || (i == 14 && x &&& 3 != 0)
  | _ => false

/-! The effect of a lane (R276 to R281). -/

/-- The payload and entry of a scaled element's tile, and whether any of it is uncorrectable (R244, R277). -/
def State.tileAt (s : State) (e : ElemAt) : List Byte × Nat × Bool :=
  let (p, b1) := s.seeBytes 0 0 ((List.range (payloadBytes e.code)).map (fun i => { dev := e.dev, pa := e.pay + i }))
  let (q, b2) := s.seeBytes 0 0 ((List.range 16).map (fun i => { dev := e.dev, pa := e.ent + i }))
  (p, leNat q, b1 || b2)

/-- An atomic operation (R280): the new value and the status bits. -/
def atomNew (op ty old x y : Nat) : Nat × Nat :=
  let w := tyWidth ty
  let o := old % 2 ^ w
  let a := x % 2 ^ w
  let sg := isSigned ty
  match op with
  | 0 =>
    if ty = 0x10 then
      let u := decodeFp ty o
      let v := decodeFp ty a
      let (r, f) := sumFl [u, v]
      let (p, g) := roundFp ty false false r
      (p, f ||| g ||| sigNV [u, v])
    else ((o + a) % 2 ^ w, 0)
  | 1 => if ty = 0x10 then minMaxFp ty false o a else (if toInt sg w a < toInt sg w o then a else o, 0)
  | 2 => if ty = 0x10 then minMaxFp ty true o a else (if toInt sg w o < toInt sg w a then a else o, 0)
  | 3 => (o &&& a, 0)
  | 4 => (o ||| a, 0)
  | 5 => (o ^^^ a, 0)
  | 6 => (a, 0)
  | _ => (if o = a then (if w = 32 then x / 2 ^ 32 % 2 ^ 32 else y) else o, 0)

/-- The bytes that a lane's access reaches: its own, and the tiles of its scaled elements. -/
def LaneOp.reach (op : LaneOp) : List PByte :=
  op.bytes ++ (match op.act with | .scaled _ _ els => els.flatMap ElemAt.reach | _ => [])

/-- What one lane does: the register cell it returns, and the state. -/
def State.laneDo (s : State) (op : LaneOp) : State × Option (Nat × Nat × VCell) :=
  let k := s.ck
  let s := s.outTouch s.tm.id.tenant s.tm.id.cls op.reach
  match op.act with
  | .load reg sx =>
    let (bs, bad) := s.seeBytes k op.kind op.bytes
    let v := if sx = 0 then leNat bs else wrapInt 64 (toInt true sx (leNat bs))
    (s.readTouch k op.kind op.hint op.bytes, some (reg, op.lane, { val := BitVec.ofNat 64 v, pz := bad }))
  | .scaled reg ty els =>
    let p := s.promoteFor op.reach
    let s := p.1.stat p.2
    let r := els.map (fun e =>
      let (p, ent, bad) := s.tileAt e
      let (v, f) := tileLoad ty e.code p ent (e.n / 16) (e.n % 16)
      (v, f, bad))
    let v := (r.zip (List.range els.length)).foldl (fun a x => a + x.1.1 % 2 ^ tyWidth ty * 2 ^ (x.2 * tyWidth ty)) 0
    (s.stat (r.foldl (fun a x => a ||| x.2.1) 0),
     some (reg, op.lane, { val := BitVec.ofNat 64 v, pz := r.any (fun x => x.2.2) }))
  | .store data => (s.storeBytes k op.bytes data, none)
  | .atom reg aop ty x y =>
    let (bs, bad) := s.seeBytes k 0 op.bytes
    let s := s.readTouch k 0 0 op.bytes
    let old := leNat bs
    let cell : VCell := { val := BitVec.ofNat 64 old, pz := bad }
    if bad then (s, some (reg, op.lane, cell))
    else
      let (n, f) := atomNew aop ty old x.toNat y.toNat
      let s := (s.putBytes op.bytes (leBytes op.bytes.length n) []).l1Drop k op.bytes
      (s.stat f, some (reg, op.lane, cell))

/-- The cycles that a section's accesses to scratchpads take beyond one: the words that its lanes name in one bank of one scratchpad
(R238). -/
def bankDelay (s : State) (ops : List LaneOp) : Nat :=
  let ws := ((ops.flatMap (·.bytes)).filterMap (fun b =>
    match s.region b with | .scratch k o => some (k, o / 16) | _ => none)).dedup
  (ws.map (fun w => (ws.filter (fun v => v.1 == w.1 && v.2 % 32 == w.2 % 32)).length)).foldl max 0 - 1

/-- Bank-conflict cycles of an access, section by section (R374). -/
def bankConflicts (s : State) (ops : List LaneOp) : Nat :=
  ((((ops.map (fun o => o.lane / 32)).dedup).map (fun i => bankDelay s (ops.filter (fun o => o.lane / 32 == i)))).sum)

/-- Lanes performed in ascending order, their results written together (R256, R276, R281). -/
def State.performOps (s : State) (ops : List LaneOp) : State :=
  let s := s.count s.ck 8 s.tm.id.tenant (bankConflicts s ops)
  let (s, cells) := ops.foldl (fun (acc : State × List (Nat × Nat × VCell)) op =>
    let (s, c) := acc.1.laneDo op
    (s, acc.2 ++ c.toList)) (s, [])
  match cells with
  | [] => s
  | c :: _ => s.wv c.1 (cells.map (fun x => (x.2.1, x.2.2)))

/-- Whether an access must wait for a copy in flight (R246). -/
def State.opsGuarded (s : State) (ops : List LaneOp) : Bool := ops.any (fun o => o.reach.any s.guarded)

/-- Whether a lane's access, of a release (`rel`) or not, stays behind one of its team that is held (R256, R258): SO behind SO in issue
order; of the same lane, any SO or RC access behind an acquire, a release behind any of them, and one that shares a byte. -/
def LaneOp.follows (rel : Bool) (e : InFlight) (o : LaneOp) : Bool :=
  e.held.any (fun h => (h.kind == 0 && o.kind == 0) || (h.lane == o.lane &&
    ((e.acq != 0 && o.kind != 2) || (rel && h.kind != 2) || h.reach.any o.reach.contains)))

/-- Whether accesses stay behind an earlier instruction of the team that is held. -/
def opsFollow (fly : List InFlight) (rel : Bool) (ops : List LaneOp) : Bool :=
  fly.any (fun e => ops.any (·.follows rel e))

/-- The acquire of accesses that have been performed (R262); `acq` is the scope plus 1, or 0. -/
def State.acquired (s : State) (acq : Nat) : State := if acq = 0 then s else s.l1Acquire s.ck (acq - 1) false

/-- Lane accesses performed now, or held with their instruction until the range guard and the order of the team's own accesses let
them (R246, R256, R258). A gatherer has one access at a time. -/
def State.perform (s : State) (ops : List LaneOp) (rel : Bool) (acq : Nat) : State :=
  if !s.isGath && (s.opsGuarded ops || opsFollow s.tm.fly rel ops) then
    let guards := (ops.flatMap (fun o => o.reach.flatMap s.guardsAt)).dedup
    s.onTm (fun t => match t.fly with
      | f :: fs => { t with fly := { f with held := ops, guards := guards, rel := rel, acq := acq } :: fs }
      | [] => t)
  else (s.performOps ops).acquired acq

/-- Whether a held entry of a team is still held: by a copy that was in flight at its issue, or by its team's earlier accesses. -/
def State.stillHeld (s : State) (t : Team) (f : InFlight) : Bool :=
  f.guards.any s.stillGuards || opsFollow (t.fly.filter (fun g => decide (g.id < f.id))) f.rel f.held

/-- Whether a team has accesses held that a release of the whole team waits for (R257, R258). -/
def Team.holds (t : Team) : Bool := t.fly.any (fun f => f.held.any (fun o => o.kind != 2))

/-- Whether a lane writes memory. -/
def LaneAct.writes : LaneAct → Bool
  | .store _ | .atom .. => true
  | _ => false

/-- Whether a team has writes issued, of any kind, that are not performed: its own held ones, and those of the copies, collectives and
drains that it issued. One that is stopped at a fault writes nothing until its record is resolved, so it is not waited for, which is the
model's choice (R340; log 129). -/
def State.writesLeft (s : State) (k i : Nat) : Bool :=
  let t := s.team k i
  let mine := fun (x : Issuer) => x.slot == i && x.gref == t.id.gref
  let m := (s.core k).mat
  t.fly.any (fun f => f.held.any (·.act.writes))
    || (s.core k).copies.any (fun c => mine c.iss && !c.pend)
    || m.fifo.any (fun c => mine c.iss && (match c.op with | .adrn .. => true | _ => false))
    || (match m.drain with | some d => mine d.cmd.iss && !d.pend | none => false)

/-- The L1 lines of core `k` that overlap physical bytes, dropped after an engine or tile write (R240). -/
def State.engineWrite (s : State) (k : Nat) (bs : List PByte) (xs : List Byte) (bads : List Bool) : State :=
  (s.putBytes bs xs bads).l1Drop k bs

/-- A tile written whole: payload and entry (R76, R244). -/
def State.putTile (s : State) (k : Nat) (dev : Option Nat) (pay ent : Nat) (p : List Byte) (entry : Nat) : State :=
  let bp := (List.range p.length).map (fun i => ({ dev := dev, pa := pay + i } : PByte))
  let be := (List.range 16).map (fun i => ({ dev := dev, pa := ent + i } : PByte))
  s.engineWrite k (bp ++ be) (p ++ leBytes 16 entry) []

/-- SEQ of a tile's next write (R76). -/
def State.nextSeq (s : State) (dev : Option Nat) (ent : Nat) : Nat :=
  (entSeq (leNat (s.seeBytes 0 0 ((List.range 16).map (fun i => { dev := dev, pa := ent + i }))).1) + 1) % 2 ^ 32

end Sys2Proof.Machine
end

