-- ==== Sys2Proof/Machine/Spin.lean ====
section
/-! DEFINITION. Signature folds (06 R126, R127) and the spin count of a path with its demotion (02 R35). -/

namespace Sys2Proof.Machine

/-- Fold (R126). -/
def fold (sig : Word32) (x : Nat) : Word32 := sig.rotateLeft 5 ^^^ BitVec.ofNat 32 x

def State.foldSig (s : State) (x : Nat) : State :=
  match s.cur with
  | .team .. => s.onRegs (fun r => { r with sig := fold r.sig x })
  | .gath .. => s

/-- Whether the top entry holds a sibling that has not reached its join (R35, R115). -/
def TeamPath.sibling (p : TeamPath) : Bool :=
  match p.stack with
  | e :: _ => e.ppc != e.jpc
  | [] => false

/-- The spin count returns to zero (R35). -/
def State.resetSpin (s : State) : State :=
  match s.cur with
  | .team .. => s.onPath (fun p => { p with spin := 0 })
  | .gath .. => s

/-- A spin demotion (R35): the running path takes the sibling's place. -/
def State.demote (s : State) (ipc : Word) : State :=
  match s.tm.path.stack with
  | [] => s
  | e :: _ =>
    let s := s.onPath (fun p =>
      { p with stack := { jpc := e.jpc, ppc := p.pc, mask := p.mask, tgt := p.tgt } :: p.stack.drop 1
               pc := e.ppc, mask := e.mask, spin := 0, tgt := e.tgt })
    let s := (s.foldSig 0x200).emitTm 0x01 (s.tm.path.stack.length * 2 ^ 58 + 2 ^ 57 + pcBits ipc) false
    s.count s.ck 11 s.tm.id.tenant 1

/-- Whether a branch goes back (R35): to its own PC or below; the next word in line is behind no branch, the last one before the address
wraps included. -/
def goesBack (ipc target : Word) : Bool := decide (target.toNat ≤ ipc.toNat) && target != nextPc ipc

/-- A backward branch of the running path, whose PC is already the target, counted (R35). A replay adds to no spin count (R382). -/
def State.spinBack (s : State) (ipc target : Word) : State :=
  match s.cur with
  | .gath .. => s
  | .team .. =>
    if s.tm.flt.replay || !goesBack ipc target then s
    else s.onPath (fun p => { p with spin := if p.tgt = some target then p.spin + 1 else 1, tgt := some target })

/-- Whether the running path has just taken the backward branch at `ipc` that brings its count to SPINTH (R35). -/
def State.spun (s : State) (ipc : Word) : Bool :=
  let p := s.tm.path
  goesBack ipc p.pc && p.tgt == some p.pc && decide (s.cr.ctl.spinth ≤ p.spin)

/-- What the count at its threshold does (R35): demotion for a waiting sibling, else the count returns to zero. -/
def State.spinOut (s : State) : State := if s.tm.path.sibling then s.demote s.tm.path.pc else s.resetSpin

end Sys2Proof.Machine
end

