-- ==== Sys2Proof/Machine/Ops.lean ====
section
/-! DEFINITION. The operations that instructions share: making and taking a fault (17 R377 to R382), halting a team (R385),
resolving a record (06 R125, 17 R384), and the issue of an instruction (05 R89, R103, R104). -/

namespace Sys2Proof.Machine

/-- What an instruction does to the state, or the fault it raises at issue. -/
abbrev Body := State → Except FaultReq State

/-- What executing an instruction answers. -/
abbrev Out := Host.Outcome State Fault Refusal

/-- A fault of a code with reason, address and detail (R379). -/
def faultOf (code : Nat) (reason : Nat := 0) (addr : Nat := 0) (detail : Nat := 0) : FaultReq :=
  { code, reason, addr := BitVec.ofNat 64 addr, detail := BitVec.ofNat 128 detail }

/-- Illegal instruction, privilege and divergent collective (R103). -/
def illegal : FaultReq := faultOf 0x01
def privilege (n : Nat := 0) : FaultReq := faultOf 0x02 0 0 (n % 4096)

/-- Consumed poison (R42, R386): file 0 vector, 1 cursor, 2 accumulator, 3 control; `mem`: read from memory at `addr`. -/
def poison (file reg lane : Nat) (mem : Bool := false) (addr : Nat := 0) : FaultReq :=
  faultOf 0x11 0 addr (reg % 64 + file * 64 + lane % 1024 * 256 + mem.toNat * 2 ^ 18)

/-- Fails with a fault when a condition holds. -/
def failIf (c : Bool) (f : FaultReq) : Except FaultReq Unit := if c then .error f else .ok ()

/-- A page entry of a record (R378). -/
def pageEntry (page reason lanes low : Nat) : BitVec 128 :=
  BitVec.ofNat 128 (page * 2 ^ 84 + reason % 8 * 2 ^ 81 + lanes % 2048 * 2 ^ 10 + low % 1024)

/-- A number put in its place in a rising list. -/
def insertAsc (x : Nat) : List Nat → List Nat
  | [] => [x]
  | y :: ys => if x ≤ y then x :: y :: ys else y :: insertAsc x ys

/-- Page entries of the lanes that failed translation, in ascending address order (R341, R378). -/
def pageEntries (fs : List (Nat × AccErr)) : List (BitVec 128) :=
  let pages := ((fs.map (fun f => f.2.page)).dedup).foldr insertAsc []
  pages.map (fun p =>
    let ls := fs.filter (fun f => f.2.page == p)
    match ls with
    | [] => 0
    | l :: _ => pageEntry p l.2.reason ls.length l.1)

/-- A reserved element-format or level-kind code that a lane met: it comes before the faults of the instruction's own (R104). -/
def AccErr.reserved (e : AccErr) : Bool := e.code == 0x04 || e.code == 0x05

/-- The lanes that decide which fault an instruction raises (R104): those that met a reserved code, else all that failed. -/
def deciding (fs : List (Nat × AccErr)) : List (Nat × AccErr) :=
  if fs.any (·.2.reserved) then fs.filter (·.2.reserved) else fs

/-- The fault of lanes that failed their checks (R104, R275, R341): the code of the lowest lane that decides, its lanes only in count
and pages. -/
def laneFault (fs : List (Nat × AccErr)) (rpm : LaneBits) : FaultReq :=
  match deciding fs with
  | [] => { code := 0, rpm := rpm }
  | (l, e) :: _ =>
    let same := fs.filter (fun f => f.2.code == e.code)
    let addr := BitVec.ofNat 64 e.addr
    let drops := ((fs.filter (·.2.walked)).map (·.2.page)).dedup
    if e.code = 0x12 then
      let es := pageEntries same
      { code := 0x12, reason := e.reason, addr, detail := es.headD 0, rpm, drops
        pages := (es.take 125).drop 1, ovf := decide (125 < es.length) }
    else if e.code = 0x04 then { code := 0x04, addr, detail := BitVec.ofNat 128 (e.val % 16), rpm, drops }
    else if e.raw then { code := e.code, reason := e.reason, addr, detail := BitVec.ofNat 128 e.val, rpm, drops }
    else
      { code := e.code, reason := e.reason, addr, detail := BitVec.ofNat 128 (same.length % 2048 * 2 ^ 10 + l % 1024), rpm, drops }

/-- A fault of a whole access made once, for the lanes served. -/
def uniformFault (lanes : List Nat) (e : AccErr) : FaultReq := laneFault (lanes.map (fun l => (l, e))) (maskOf lanes)

/-- The answer of an instruction that is not eligible now (02 R30, 01 R11): it does not issue, and nothing changes. -/
def stall : FaultReq := faultOf 0x1FF

/-- A slot of up to four page entries, the first at the lowest address. -/
def pageSlot (es : List (BitVec 128)) : BitVec 512 :=
  BitVec.ofNat 512 (es.foldr (fun e acc => e.toNat + 2 ^ 128 * acc) 0)

/-- Continuation slots of page entries, four a slot, pages in ascending address order (R378). -/
def pageSlots : List (BitVec 128) → List (BitVec 512)
  | a :: b :: c :: d :: t => pageSlot [a, b, c, d] :: pageSlots t
  | [] => []
  | es => [pageSlot es]

/-- Codes that halt the team (R379). -/
def halts (code : Nat) : Bool := [0x06, 0x10, 0x11].contains code

/-- Whether a record counts in the unresolved count (R384). -/
def counts (agent code : Nat) : Bool := !(agent == 0 && (code == 0x0E || code == 0x0F))

/-- The record of a fault of a team (R377, R378): `n` lanes in RPM. -/
def State.teamRecord (s : State) (k i : Nat) (pc : Word) (fr : FaultReq) (n : Nat) : State × Nat :=
  let t := s.team k i
  let (a, b) := t.tops
  let conts := pageSlots fr.pages
  let r : RecHead :=
    { pc, gref := t.id.gref, rtop := a, rnext := b, code := fr.code, reason := fr.reason, agent := 0, pend := !halts fr.code
      tenant := t.id.tenant, core := k, tslot := i, nrpm := n, next := conts.length, ovf := fr.ovf
      body := fr.word.toNat * 2 ^ 192 + fr.addr.toNat * 2 ^ 128 + fr.detail.toNat }
  s.record (dieOfCore k) r conts
    { pend := !halts fr.code, counted := !halts fr.code && counts 0 fr.code, agent := 0, core := k, unit := i
      code := fr.code, gref := t.id.gref, rpm := n }

/-- STAT of a barrier after a halt (2) or a kill (3): a kill is never weakened (R356). -/
def Bar.abandon (b : Bar) (st : Nat) : Bar := { b with stat := max b.stat st }

/-- Cluster of a core in its die (R8), and the key of a cluster barrier. -/
def clusterOf (k : Nat) : Nat := k % 48 / 8
def cbKey (k b : Nat) : Nat := 8 * clusterOf k + b

/-- Named barrier, cluster barrier and grid barrier accessors. -/
def State.nbar (s : State) (k b : Nat) : Bar := Tbl.get {} (s.core k).tabs.bars b
def State.onNbar (s : State) (k b : Nat) (f : Bar → Bar) : State :=
  s.onTabs k (fun t => { t with bars := Tbl.upd {} t.bars b f })
def State.cbar (s : State) (k b : Nat) : Bar := Tbl.get {} (s.die (dieOfCore k)).cbars (cbKey k b)
def State.onCbar (s : State) (k b : Nat) (f : Bar → Bar) : State :=
  s.onDie (dieOfCore k) (fun d => { d with cbars := Tbl.upd {} d.cbars (cbKey k b) f })
def State.gridBar (s : State) (b : Nat) : Bar := (Tbl.get {} s.io.grids b).bar
def State.onGrid (s : State) (b : Nat) (f : Grid → Grid) : State :=
  { s with io := { s.io with grids := Tbl.upd {} s.io.grids b f } }
def State.onTask (s : State) (tag : Nat) (f : Task → Task) : State := { s with tasks := Tbl.upd {} s.tasks tag f }
def State.task (s : State) (tag : Nat) : Task := Tbl.get {} s.tasks tag

/-- A bit field of a 512-bit record. -/
def recBits (h : BitVec 512) (lo n : Nat) : Nat := natBits h.toNat lo n

/-- Member devices of a grid barrier (R363). -/
def Grid.members (g : Grid) : List Nat := (List.range 256).filter (fun i => g.map.getLsbD i)

/-- A message about a grid barrier to a device, on VC 5 (R412, R417). -/
def State.sendGrid (s : State) (b dev : Nat) (what : List Nat) : State :=
  s.sendOn { vc := 5, dev, tenant := (Tbl.get {} s.io.grids b).tenant, what := b :: what }

/-- A message to every other member device. -/
def State.tellGrid (s : State) (b : Nat) (what : List Nat) : State :=
  ((Tbl.get {} s.io.grids b).members.filter (fun d => d != s.io.domidx)).foldl (fun s d => s.sendGrid b d what) s

/-- A grid barrier takes STAT here, and every member device is told (R356, R362). -/
def State.abandonGrid (s : State) (b st : Nat) : State :=
  if st ≤ (s.gridBar b).stat then s else (s.onGrid b (fun x => { x with bar := x.bar.abandon st })).tellGrid b [1, st]

/-- Every barrier of a group, and every cluster and grid barrier its task holds, takes STAT (R385, R356). -/
def State.abandonBars (s : State) (k g st : Nat) : State :=
  let gr := (s.core k).group g
  let s := (List.range gr.nbar).foldl (fun s b => s.onNbar k (gr.bbase + b) (·.abandon st)) s
  let s := s.cores.foldl (fun s c => c.2.groups.foldl (fun s x =>
    if x.2.tag = gr.tag ∧ x.2.cluster.isSome then
      (List.range 8).foldl (fun s b => if (recBits x.2.hdr 325 8).testBit b then s.onCbar c.1 b (·.abandon st) else s) s
    else s) s) s
  (List.range 4).foldl (fun s b =>
    if (Tbl.get {} s.io.grids b).holder = some gr.tag then s.abandonGrid b st else s) s

/-- A wait of a team ends with a status: the destination is written, the wait completes and the team is READY again (R100). The
PC stays; `State.afterWait` moves it on. -/
def Team.dropWait (t : Team) : Team := { t with wait := none, arrd := false }

/-- Records of the ring resolved (R377, R313): PEND is cleared in memory, the counts change, HEAD advances. -/
def State.clearPend (s : State) (d : Nat) (sel : RecInfo → Bool) : State :=
  let q := (s.die d).fq
  let hit := q.recs.filter (fun r => r.pend && sel r)
  let s := hit.foldl (fun s r =>
    let pa := q.base + 64 * (r.handle.toNat % 1024) + 37
    s.poke pa [s.mem.byte pa &&& 0xEF]) s
  let n := (hit.filter (·.counted)).length
  s.onDie d (fun x => { x with fq :=
    ({ x.fq with recs := x.fq.recs.map (fun r => if r.pend && sel r then { r with pend := false } else r)
                 unres := x.fq.unres - n } : FaultQueue).advance })

/-- A gatherer ends (R308): CLOSED on every queue when it is the group's last, PFLT after a fault. -/
def State.endGath (s : State) (k g : Nat) (pflt : Bool) : State :=
  let grp := (s.gath k g).grp
  let s := s.onGath k g (fun x => { x with ended := true, halt := false })
  let all := ((s.core k).group grp).gaths.all (fun j => (s.gath k j).ended)
  s.onGroup k grp (fun gr => { gr with queues := gr.queues.map (fun e =>
    (e.1, e.2 ||| (if all then 1#64 <<< 25 else 0) ||| (if pflt then 1#64 <<< 24 else 0))) })

/-- A CPYC event (R319): outcome 0 retired, 1 stopped, 2 resumed, 3 terminated, 4 mismatch, 5 abandoned. -/
def State.cpyc (s : State) (k : Nat) (c : Copy) (outcome : Nat) : State :=
  s.emit k 0x0D c.iss.slot c.iss.tenant (c.kind * 2 ^ 62 + outcome * 2 ^ 59 + c.prog % 2 ^ 24 * 2 ^ 35) true

/-- The range-guard entry of a copy that retires or is terminated: V is cleared, nothing else (R245). -/
def State.freeGuardOf (s : State) (c : Copy) : State :=
  match c.gcore, c.gent with
  | some gc, some ge => s.onTabs gc (fun t => { t with guard := Tbl.upd {} t.guard ge (fun e => { e with v := false }) })
  | _, _ => s

/-- A pending copy is terminated: its guard entry is cleared and its flag completes (R292). -/
def State.dropCopy (s : State) (k : Nat) (c : Copy) : State :=
  let s := s.cpyc k c 3
  let s := s.freeGuardOf c
  let s := s.onCore k (fun x => { x with copies := x.copies.filter (fun y => y.id != c.id) })
  if (s.team k c.iss.slot).id.gref = c.iss.gref then s.onTeam k c.iss.slot (·.complete c.iss.fly) else s

/-- Whether a record is one of a team's own, of its copies, drains or gatherers (R385). -/
def State.recOfTeam (s : State) (k i : Nat) (r : RecInfo) : Bool :=
  let t := s.team k i
  r.gref == t.id.gref && r.core == k &&
    match r.agent with
    | 0 => r.unit == i
    | 1 => (s.gath k r.unit).slot == i
    | 2 => (s.core k).copies.any (fun c => c.id == r.unit && c.iss.slot == i)
    | 3 => (match (s.core k).mat.drain with | some d => d.cmd.iss.slot == i | none => false)
    | _ => false

/-- A drain that is stopped at a fault is given up and its flag completes (R384). -/
def State.dropDrain (s : State) (k : Nat) : State :=
  match (s.core k).mat.drain with
  | none => s
  | some d =>
    let s := s.onMat k (fun m => { m with drain := none })
    if (s.team k d.cmd.iss.slot).id.gref = d.cmd.iss.gref then s.onTeam k d.cmd.iss.slot (·.complete d.cmd.iss.fly) else s

/-- A team enters HALTED (R385) with STAT `st` on its barriers: held accesses are dropped, its pending records are resolved as
action 2, its task will complete with error. -/
def State.haltTeam (s : State) (k i st : Nat) : State :=
  let t := s.team k i
  let g := t.id.grp
  let copies := (s.core k).copies.filter (fun c => c.pend && c.iss.slot == i && c.iss.gref == t.id.gref)
  let drains := match (s.core k).mat.drain with | some d => d.pend && d.cmd.iss.slot == i | none => false
  let gaths := ((s.core k).group g).gaths.filter (fun j => (s.gath k j).slot == i && (s.gath k j).halt)
  let mine := s.recOfTeam k i
  let s := (List.range 4).foldl (fun s d => s.clearPend d mine) s
  let s := copies.foldl (fun s c => s.dropCopy k c) s
  let s := if drains then s.dropDrain k else s
  let s := gaths.foldl (fun s j => s.endGath k j true) s
  let s := s.onTeam k i (fun t =>
    { t.dropWait with st := 4, flt := { t.flt with pf := false, win := none, replay := false }
                      fly := t.fly.map (fun f => { f with held := [] }) })
  let s := s.abandonBars k g st
  s.onTask t.id.tag (fun x => { x with err := true })

/-- A record of a copy or drain is resolved with action 2 (R384, R385): its issuing team, if it is still one that R26 lets end so, is
halted. A team that is DONE stays DONE. -/
def State.haltIssuer (s : State) (k : Nat) (i : Issuer) : State :=
  let t := s.team k i.slot
  if t.id.gref = i.gref ∧ (t.st = 1 ∨ t.st = 2) then s.haltTeam k i.slot 2 else s

/-- What the TLBs hold of the pages that lanes of an instruction failed to translate is dropped before the fault is raised (R341). -/
def State.dropFailed (s : State) (fr : FaultReq) : State :=
  fr.drops.foldl (fun s p => s.dropPage s.ck s.tm.id.tenant p) s

/-- The instruction's PC has moved on: loop-back of the innermost loop (R121). -/
def loopBack (ipc : Word) (p : TeamPath) : TeamPath :=
  match p.loops with
  | [] => p
  | l :: ls =>
    if l.last = ipc ∧ p.pc = nextPc ipc then
      let c := l.count - 1
      if c ≠ 0 then { p with pc := l.start, loops := { l with count := c } :: ls }
      else { p with loops := ls }
    else p

/-- A gatherer moves past its instruction, with the loop-back of its innermost loop (R121, R308). -/
def Gatherer.passed (g : Gatherer) : Gatherer :=
  let p := loopBack g.pc { pc := nextPc g.pc, loops := g.loops }
  { g with pc := p.pc, loops := p.loops }

/-- An instruction whose record is still to be written completes with the record only (R50, R89). -/
def Team.keepOpen (t : Team) (id : Nat) : Team :=
  { t with fly := t.fly.map (fun f => if f.id == id then { f with due := none } else f) }

/-- Taking a fault at issue (R381): RPM, FPC and the record; the flag falls once the record is written, until then the instruction stays
in flight. The PC is that of the next instruction, after the loop-back (R121); with `ctl`, for an instruction that sets the PC itself, the
loop-back is left to its resolution (log 13). -/
def State.takeFault (s : State) (fr : FaultReq) (ctl : Bool) : State :=
  let s := (s.dropFailed fr).orStat fr.stat
  let k := s.ck
  let i := s.slot
  let fpc := s.ipc
  let first := !s.tm.flt.replay
  let rpm := if fr.code = 0x0E ∨ fr.code = 0x0F then 0 else if fr.code = 0x10 then s.tm.regs.rpm else fr.rpm
  let fly := match s.tm.fly with | f :: _ => f.id | [] => 0
  let s := s.onTm (·.setRpm rpm)
  let s := if first then s.setPc (nextPc fpc) else s
  let s := if first && !ctl then s.onPath (loopBack fpc) else s
  let (s, h) := s.teamRecord k i fpc fr (countLanes s.nl rpm)
  if halts fr.code then (s.onTm (·.complete fly)).haltTeam k i 2
  else
    let s := if h = 0 then s.onTm (·.keepOpen fly) else s.onTm (·.complete fly)
    s.onTm (fun t => { t with
      st := 2, wait := none
      flt := { t.flt with pf := true, fpc := fpc, handle := BitVec.ofNat 32 h, hdie := dieOfCore k, code := fr.code
                          atIssue := if first then ctl else t.flt.atIssue, replay := false, unissued := false, win := none, winFly := fly
                          word := fr.word } })

/-- A gatherer's fault (R308): it stops with a record of agent 1; consumed poison ends it. -/
def State.gathFault (s : State) (fr : FaultReq) : State :=
  let s := s.dropFailed fr
  let k := s.ck
  let g := s.gi
  let t := s.tm
  let (a, b) := t.tops
  let p := fr.code != 0x11
  let r : RecHead :=
    { pc := s.gt.pc, gref := t.id.gref, rtop := a, rnext := b, code := fr.code, reason := fr.reason, agent := 1, pend := p
      tenant := t.id.tenant, core := k, tslot := s.slot, gidx := g, nrpm := if p then 1 else 0
      body := fr.word.toNat * 2 ^ 192 + fr.addr.toNat * 2 ^ 128 + fr.detail.toNat }
  let (s, h) := s.record (dieOfCore k) r [] { pend := p, counted := p, agent := 1, core := k, unit := g, code := fr.code, gref := t.id.gref, rpm := 1 }
  if p then s.onGt (fun x => { x with halt := true, handle := BitVec.ofNat 32 h, word := fr.word })
  else s.endGath k g true

/-- The GRANT of a heap-fault record of one lane that is resolved with action 0 (R197); 0xFFFF_FFFF is none. -/
def State.grantWord (s : State) (d : Nat) (r : RecInfo) (action : Nat) : Option Nat :=
  let g := s.mem.readLe ((s.die d).fq.base + 64 * (r.handle.toNat % 1024)) 4
  if action = 0 ∧ r.code = 0x1B ∧ r.rpm = 1 ∧ g ≠ 0xFFFF_FFFF then some g else none

/-- The path on which a team goes on after a fault (R121, R125, R382). Under action 1 an instruction that had not issued (a debug stop, a
fetch: R124, R241) is passed over; one that issued and would have set the PC is over, so the loop-back of its place is made. A join check
is made before no instruction, and the path stays. -/
def Team.resumePath (t : Team) (action : Nat) : TeamPath :=
  if action ≠ 1 then t.path
  else if t.flt.unissued then (if t.flt.code = 0x0A then t.path else { t.path with pc := nextPc t.flt.fpc })
  else if t.flt.atIssue then loopBack t.flt.fpc t.path
  else t.path

/-- The return from a fault of a team (R382, R125): action 0 replays the instruction at FPC, 1 goes on behind it, 2 halts. An
instruction that had not issued (a join check, a debug stop, a fetch: R116, R124, R241) issues as usual under action 0. -/
def State.resumeTeam (s : State) (k i action : Nat) (grant : Option Nat) : State :=
  if action = 2 then s.haltTeam k i 2
  else
    let cyc := (s.die (dieOfCore k)).clk.cyc.toNat
    s.onTeam k i (fun t =>
      { t with
        st := 1
        path := t.resumePath action
        regs := { t.regs with rpm := if action = 1 ∨ t.flt.unissued then 0 else t.regs.rpm }
        flt := { t.flt with pf := false, grant := grant, replay := decide (action = 0) && !t.flt.unissued
                            unissued := false, skip := decide (action = 1) && t.flt.unissued && t.flt.code == 0x0A }
        sched := { t.sched with ref := cyc, readyFor := 0 } })

/-- A copy or drain resumes (R226, R292). -/
def State.resumeCopy (s : State) (k id : Nat) : State :=
  s.onCore k (fun c => { c with copies := c.copies.map (fun y => if y.id == id then { y with pend := false, handle := 0 } else y) })

/-- Resolution of a pending record (R125, R384), from ERET or the host: an unknown or stale handle, a record that is not
pending, and action 3 change nothing; copies and drains ignore action 1. -/
def State.resolveRec (s : State) (d handle action : Nat) : State :=
  match (s.die d).fq.recs.find? (fun r => r.pend && r.handle.toNat == handle) with
  | none => s
  | some r =>
    if action = 3 ∨ (action = 1 ∧ 2 ≤ r.agent) then s
    else
      let k := r.core
      let here := match r.agent with
        | 0 => let t := s.team k r.unit; t.id.gref == r.gref && t.st != 0 && t.flt.pf
        | 1 => let g := s.gath k r.unit; g.halt && g.handle.toNat == handle
        | _ => true
      let grant := s.grantWord d r action
      let s := s.clearPend d (fun x => x.handle == r.handle)
      if !here && r.agent != 0 then s
      else if !here then
        let code := action + match grant with | some g => 4 * (g + 1) | none => 0
        s.onDie d (fun x => { x with fq := { x.fq with acts := (handle, r.gref, code) :: x.fq.acts } })
      else
        match r.agent with
        | 0 => s.resumeTeam k r.unit action grant
        | 1 =>
          if action = 2 then s.endGath k r.unit true
          else s.onGath k r.unit (fun g => { (if action = 1 then g.passed else g) with halt := false, grant := grant })
        | 2 =>
          match (s.core k).copies.find? (fun c => c.id == r.unit) with
          | none => s
          | some c =>
            if action = 0 then (s.cpyc k c 2).resumeCopy k c.id
            else
              (s.dropCopy k c).haltIssuer k c.iss
        | 3 =>
          match (s.core k).mat.drain with
          | none => s
          | some dr =>
            if action = 0 then s.onMat k (fun m => { m with drain := some { dr with pend := false } })
            else
              (s.dropDrain k).haltIssuer k dr.cmd.iss
        | _ => s

/-- The word of an instruction. -/
def wordOf (i : Instr) : Word := BitVec.ofNat 64 ((encode i).elim 0 (·.toNat))

/-- The opcodes of a gatherer (R308), by range. -/
def gathOpcode (opc : Nat) : Bool :=
  [0x001, 0x002, 0x003, 0x004, 0x005, 0x006, 0x007, 0x008, 0x009, 0x00A, 0x00B, 0x00D, 0x00E, 0x01B, 0x180, 0x182, 0x1C3].contains opc
  || (decide (0x040 ≤ opc ∧ opc ≤ 0x05A)) || decide (0x160 ≤ opc ∧ opc ≤ 0x16F)

/-- Whether the role of a team may issue an opcode (R22). -/
def roleOk (role opc : Nat) : Bool :=
  if 0x18B ≤ opc ∧ opc ≤ 0x18E then role == 1
  else if 0x1A0 ≤ opc ∧ opc ≤ 0x1A8 then role == 2
  else opc != 0x1C3

/-- Sections that an instruction sweeps (R28). -/
def State.sections (s : State) (n : Info) : Nat :=
  if n.sweep then ((List.range 32).filter (fun i => s.tm.path.mask.summ.getLsbD i)).length else 1

/-- A team at the start of an issue: the flag is signalled and the instruction is in flight (R89, R90). -/
def Team.opened (t : Team) (n : Info) (flag : Nat) (due : Option Nat) (ipc : Word) : Team :=
  let u := t.signal flag ipc
  { u with
    nextId := u.nextId + 1
    fly := { id := u.nextId, flag := flag, due := due, acc := decide (n.tgt = 2), curs := decide (n.tgt = 3)
             fence := n.opc == 0x188, summ := if n.bySection then u.path.mask.summ else 0 } :: u.fly }

/-- The in-flight entry and the signal of an issue (R89, R90). A replay signals its flag again, as R382 gives it the same SIG; R53 can be
read otherwise, so this is the model's choice (log 140). -/
def State.openIssue (s : State) (n : Info) : State :=
  let flag := n.head.sig.toNat
  let flag := if flag ≤ 12 then flag else 0
  let due := match n.lat with
    | .none_ => some s.cyc
    | .fixed l => some (s.cyc + (s.sections n - 1) + l)
    | .var => none
  s.onTm (·.opened n flag due s.ipc)

/-- The instruction just issued, the newest in flight, will clear RPM at its completion (R54). -/
def Team.clearsRpm (t : Team) : Team :=
  match t.fly with
  | f :: fs => { t with fly := { f with clr := true } :: fs }
  | [] => t

/-- A team at the end of an issue: the replay has issued, and RPM is cleared when it completes without a fault (R54); the latency class
None completes. -/
def Team.endIssue (t : Team) (n : Info) (replay : Bool) : Team :=
  let t := { t with flt := { t.flt with replay := false } }
  let t := if replay && t.flt.win.isNone then t.clearsRpm else t
  match n.lat, t.fly with
  | .none_, f :: _ => t.complete f.id
  | _, _ => t

/-- The opcodes of the branches that R35 counts: BRA, BRS, BRC, JMPI. -/
def branchOpc (opc : Nat) : Bool := decide (2 ≤ opc ∧ opc ≤ 5)

/-- Where a path goes on behind its instruction: a branch whose backward branch brings its spin count to SPINTH ends in a demotion or in
a count of zero (R35); every other path meets the loop-back (R121). -/
def State.settlePath (s : State) (n : Info) (ipc : Word) : State :=
  if branchOpc n.opc && s.spun ipc then s.spinOut else s.onPath (loopBack ipc)

/-- The end of an issue without a fault: PC, loop-back, the latency class None completes. `ctl`: the body has set the PC. A replay leaves
the PC, unless its instruction sets it itself and faulted at issue; a wait or a park leaves it too. -/
def State.closeIssue (s : State) (n : Info) (ipc : Word) (ctl replay atIssue : Bool) : State :=
  let keep := replay && !atIssue
  let waiting := (s.tm.st == 2 && s.tm.wait.isSome) || s.tm.park
  let s := if ctl || keep || waiting then s else s.setPc (nextPc ipc)
  let s := if keep || waiting then s else if replay then s.onPath (loopBack ipc) else s.settlePath n ipc
  s.onTm (·.endIssue n replay)

/-! What of its core's units an instruction needs free (02 R30). -/

/-- Whether the core's copy engine has its channels and its queue full (01 R10, R11): 4 channels, and a queue behind them whose depth
the spec does not give (log 6). -/
def State.engineFull (s : State) : Bool :=
  decide (Config.copyQueue + 4 ≤ (s.cr.copies.filter (fun c => c.kind != 3)).length)

/-- Whether the queue of a collective engine of the device is full (R7, R11; log 6). -/
def State.collFull (s : State) (eng : Nat) : Bool :=
  decide (Config.copyQueue + 1 ≤ (s.cores.flatMap (fun c => c.2.copies.filter (fun x => x.kind == 3 && x.eng == eng))).length)

/-- Whether an MMA that names slot `n` is in the FIFO or in the array (R212). -/
def CoreMat.slotUsed (m : CoreMat) (n : Nat) : Bool :=
  let uses := fun (c : MatCmd) => match c.op with | .mma _ _ _ _ w _ _ => w == n | _ => false
  m.fifo.any uses || m.mmas.any (fun r => uses r.cmd)

/-- Instructions in flight of the issuing agent's group (R173). -/
def State.groupFly (s : State) : List InFlight := s.grpOf.slots.flatMap (fun i => (s.team s.ck i).fly)

/-- Whether the issue target of an opcode has room for a command: the crossing FIFO of 16 entries, the engines' queues (R11, R203). -/
def State.portRoom (s : State) (opc : Nat) : Bool :=
  if 0x1A0 ≤ opc ∧ opc ≤ 0x1A8 then decide (s.cr.mat.fifo.length < 16)
  else if 0x18B ≤ opc ∧ opc ≤ 0x18D then !s.engineFull
  else true

/-- Opcodes that act as a release of the whole team (R265, R340): ERET, BARV, BSYNC, BDROP, CBAR, GBAR, DCSET, DCADD, ENQ; and the pops
of a queue and DEQ, which read and write scratchpad bytes that a held access may be to write or read. -/
def releasing (opc : Nat) : Bool :=
  [0x00F, 0x1B0, 0x1B2, 0x1B3, 0x1B5, 0x1B6, 0x1B7, 0x1B8, 0x1C0, 0x1C1, 0x1C4, 0x1C5].contains opc

/-- Whether such an operation is kept back by accesses of its team that are held (R257), ERET by every write of its team (R340). -/
def State.releaseWaits (s : State) (opc : Nat) : Bool :=
  !s.isGath && ((s.tm.holds && releasing opc) || (opc == 0x00F && s.writesLeft s.ck s.slot))

/-- Whether an instruction finds what it needs of its core free; else it is not eligible (R30): room at the command port (R11, R203); the
slot of WBLD and WBINV (R212, R213); the pattern entry of PTLD and PERM (R164); for the cursor range, the level descriptors of its group
(R173); for a team's release, its own held accesses. -/
def State.unitFree (s : State) (i : Instr) : Bool :=
  let n := instrInfo i
  let cyc := s.cyc
  let pat := fun (c : Nat) => Tbl.get ({} : Pat) s.cr.tabs.pats c
  let slot := fun (w : Nat) => Tbl.get ({} : WSlot) s.cr.mat.slots w
  s.portRoom n.opc && !s.releaseWaits n.opc
  && match i with
     | .coll _ o => !s.collFull ((Tbl.get 0 s.io.ctxs (natBits (s.rs o.b.toNat).toNat 40 8)).toNat % 2)
     | .wbld _ o => !(slot (o.d.toNat % 8)).load && !s.cr.mat.slotUsed (o.d.toNat % 8)
     | .wbinv _ o => !(slot (o.d.toNat % 8)).load
     | .ptld _ o => let p := pat o.c.toNat; !(p.lv && p.hold != s.tm.id.grp) && decide (p.swept ≤ cyc)
     | .perm _ o => decide ((pat o.c.toNat).fresh ≤ cyc)
     | .ldtld _ o =>
       let e := (s.rs o.b.toNat).toNat
       let t := Tbl.get ({} : Ldt) s.cr.tabs.ldt e
       !s.groupFly.any (·.curs) && !(decide (e < 256) && t.lv && t.hold != s.tm.id.grp)
     | .cheap .. => !s.groupFly.any (·.curs)
     | .capp _ o => !s.groupFly.any (·.ldt) && !(o.order == 2 && !s.isGath && s.tm.holds)
     | .cvst _ o => !s.groupFly.any (·.ldt) && !(o.order == 2 && !s.isGath && s.tm.holds)
     | _ => !(n.tgt == 3 && s.groupFly.any (·.ldt))

/-- The issue of an instruction (R30, R89, R94, R103, R104): one that is not eligible does nothing; else the illegal-instruction cases,
then the body, whose fault is taken. A team has at most one fault of its own (R380): an instruction that would fault at issue does not
issue while a fault that its team has met in the fault window is still to be raised, which is the model's choice (log 126).
`uniform`: without a lane served the body has no effect. `ctl`: the body sets the PC. -/
def State.issue (s : State) (i : Instr) (uniform ctl : Bool) (body : Body) : State :=
  let n := instrInfo i
  if !s.unitFree i then s else
  match s.cur with
  | .team .. =>
    let ipc := s.ipc
    let replay := s.tm.flt.replay
    let atIssue := s.tm.flt.atIssue
    let served := if n.sweep then s.served n.head.guard else s.servedNow n.head.guard
    let s₀ := s
    let s := s.openIssue n
    let r : Except FaultReq State :=
      if !n.legal s.tm.id.budget || !roleOk s.tm.id.role n.opc then .error illegal
      else if uniform && served == 0 then .ok (if ctl then s.setPc (nextPc ipc) else s)
      else body s
    match r with
    | .error fr => if fr.code = 0x1FF ∨ s₀.tm.flt.win.isSome then s₀ else s.takeFault { fr with rpm := served, word := wordOf i } ctl
    | .ok s => s.closeIssue n ipc ctl replay atIssue
  | .gath .. =>
    let ipc := s.gt.pc
    let r : Except FaultReq State :=
      if !n.legal 64 || !n.gathLegal || !gathOpcode n.opc then .error illegal else body s
    match r with
    | .error fr => if fr.code = 0x1FF then s else s.gathFault { fr with word := wordOf i }
    | .ok s =>
      let s := if ctl then s else s.setPc (nextPc ipc)
      s.onGt (fun g =>
        let p := loopBack ipc { pc := g.pc, loops := g.loops }
        { g with pc := p.pc, loops := p.loops })

/-- The guard field of a word that is no instruction: an opcode of format S and an unallocated one have none, so every active lane is
served (R93, R103). -/
def rawGuard (word : Word) : BitVec 4 :=
  match decodeRaw word with
  | .ok i => if [0x006, 0x012, 0x015].contains (instrInfo i).opc then 0 else word.extractLsb' 31 4
  | .error _ => 0

/-- The word at the PC is no instruction (R103): illegal-instruction fault, with its SIG signalled (R89). -/
def State.issueIllegal (s : State) (word : Word) (fr : FaultReq) : State :=
  match s.cur with
  | .team .. =>
    let sig := word.toNat / 2 ^ 44 % 16
    let g := rawGuard word
    let n : Info := { opc := 0, tgt := 0, lat := .none_, sweep := false
                      head := ⟨0, 0, BitVec.ofNat 4 sig, g⟩, fields := [], ok := false }
    let served := s.servedNow g
    if s.tm.flt.win.isSome then s else (s.openIssue n).takeFault { fr with rpm := served, word := word } false
  | .gath .. => s.gathFault { fr with word := word }

/-- An instruction in the fault window with failed lanes (R381): FAULT_RAISE will raise the fault. -/
def State.openWindow (s : State) (fr : FaultReq) (i : Instr) : State :=
  match s.cur with
  | .team .. =>
    let ipc := s.ipc
    s.onTm (fun t => match t.fly with
      | f :: fs => { t with fly := { f with win := true } :: fs
                            flt := { t.flt with win := some { fr with word := wordOf i }, winPc := ipc, winFly := f.id } }
      | [] => t)
  | .gath .. => s

/-- Memory-pipe lane accesses and cursor instructions with their checks done: the good lanes commit, the others wait for
FAULT_RAISE; a gatherer faults at once, and so does a reserved element-format or level-kind code, before any lane commits (R75, R103). -/
def State.commitLanes (s : State) (i : Instr) (good : State → State) (fr : FaultReq) : Except FaultReq State :=
  if fr.code = 0 then .ok (good s)
  else if fr.code = 0x04 ∨ fr.code = 0x05 then .error fr
  else match s.cur with
    | .team .. => .ok (((good s).openWindow fr i).dropFailed fr)
    | .gath .. => .error fr

/-- The destination of a wait written, the wait's completion and the move past the wait instruction (R100, R130). -/
def State.endWait (s : State) (k i status : Nat) : State :=
  let t := s.team k i
  match t.wait with
  | none => s
  | some w =>
    let cur := s.cur
    let s := { s with cur := .team k i }
    let s := s.onTm (fun t =>
      { t with fly := (t.fly.filter (fun f => f.id == w.fly)).map (fun f => { f with due := none }) ++ t.fly.filter (fun f => f.id != w.fly) })
    let s := s.ws w.dest (BitVec.ofNat 64 status)
    let s := s.onTm (fun t => ({ t.dropWait with st := 1, rewait := false }).complete w.fly)
    let s := s.setPc (nextPc w.pc)
    let s := s.onPath (loopBack w.pc)
    let s := s.onTm (fun t => { t with sched := { t.sched with readyFor := 0 } })
    { s with cur := cur }

/-- A team starts to wait at its instruction (R26): timeout exponent 15 is none, else 2^(T+8) ns (R100). -/
def State.beginWait (s : State) (kind : WaitKind) (dest t : Nat) (arrd : Bool) : State :=
  let dl := if t = 15 then none else some (s.time + 2 ^ (t + 8))
  let ipc := s.ipc
  let since := s.seq
  s.onTm (fun tm => { tm with
    st := 2, arrd := arrd, arrPh := (match kind with | .named _ p | .cluster _ p | .grid _ p => p | _ => false)
    wait := some { kind, dest, deadline := dl, since := since, pc := ipc, fly := (tm.fly.head?.map (·.id)).getD 0 } })

end Sys2Proof.Machine
end

