-- ==== Sys2Proof/Machine/SysReg.lean ====
section
/-! DEFINITION. The system registers (03 R59 to R62, 15 R349, 16 R371, R374 to R376) as SRD and SWR reach them. -/

namespace Sys2Proof.Machine

/-- The ID register (R60). -/
def idReg : Nat := 1 * 2 ^ 24 + (if Config.isM then 2 else 1) * 256 + Config.stepping.toNat

/-- COREID of core `k` (R60). -/
def coreIdReg (k : Nat) : Nat := k * 2 ^ 16 + k / 48 * 2 ^ 8 + clusterOf k * 16 + k % 8

/-- RGNS (R60). -/
def Team.rgns (t : Team) : Nat :=
  t.tops.1 * 2 ^ 48 + t.tops.2 * 2 ^ 32 + (if t.regs.tstat.getLsbD 11 then 16 else 0) + t.regs.regions.length

/-- A windowed error counter (R376). -/
def ErrCnt.word (e : ErrCnt) : Nat := e.ce % 2 ^ 16 * 2 ^ 48 + e.ue % 256 * 2 ^ 40 + e.last.toNat * 2 ^ 39

/-- An uncorrectable error counted (R376): LAST is set at 2 in 24 hours. -/
def ErrCnt.addUe (e : ErrCnt) (time : Nat) : ErrCnt :=
  let n := min 255 (e.ue + 1)
  { e with ue := n, times := e.times ++ [time], last := e.last || decide (2 ≤ n) }

/-- A corrected error counted (R376): LAST is set at 16 in one window. -/
def ErrCnt.addCe (e : ErrCnt) : ErrCnt :=
  let n := min 0xFFFF (e.ce + 1)
  { e with ce := n, last := e.last || decide (16 ≤ n) }

/-- Uncorrectable errors that are 24 hours old leave the count (R376). -/
def ErrCnt.expire (e : ErrCnt) (now : Nat) : ErrCnt :=
  let old := fun (t : Nat) => decide (t + 86400000000000 ≤ now)
  { e with times := e.times.filter (fun t => !old t), ue := e.ue - (e.times.filter old).length }

/-- The counters of a core at a time (R376): a window that is over ends and another has begun; old errors leave. -/
def CoreCtl.rollErrs (c : CoreCtl) (now : Nat) : CoreCtl :=
  let w := max 1 (c.errwin * 1000000)
  let past := decide (c.winStart + w ≤ now)
  { c with winStart := if past then c.winStart + (now - c.winStart) / w * w else c.winStart
           errs := (c.errs.map (fun e => (e.1, { e.2.expire now with ce := if past then 0 else e.2.ce }))).filter (fun e => e.2 ≠ {}) }

def State.countUe (s : State) (k strct : Nat) : State :=
  s.onCtl k (fun c => let c := c.rollErrs s.time; { c with errs := Tbl.upd {} c.errs strct (·.addUe s.time) })
def State.countCe (s : State) (k strct : Nat) : State :=
  s.onCtl k (fun c => let c := c.rollErrs s.time; { c with errs := Tbl.upd {} c.errs strct ErrCnt.addCe })

/-- SSCTL (R375). -/
def CoreCtl.ssctl (c : CoreCtl) : Nat := c.ssen.toNat * 2 ^ 63 + c.ssper % 2 ^ 20

/-- Bit `i` of a word as a number. -/
def bitOf (w : Word) (i : Nat) : Nat := (w.getLsbD i).toNat

/-- Whether a comparator's fields keep to their limits (R349). -/
def Bkpt.ok (b : Bkpt) (ctl : Word) : Bool :=
  let sel := b.sel.toNat
  let file := natBits sel 14 2
  let ty := natBits sel 0 5
  let kk := natBits sel 5 3
  let cond := natBits ctl.toNat 60 3
  [1, 2, 3, 4, 6, 7, 8, 9, 0xE, 0xF, 0x10].contains ty && decide (kk < tySubs ty) && (file == 0 || kk == 0)
    && file != 3 && decide (cond ≤ 5)

/-- The core registers that need privilege or belong to a core, by number (R59). -/
def Core.sysRead (c : Core) (n : Nat) : Word :=
  let x : Nat :=
    if n = 0x030 then c.ctl.spinth
    else if n = 0x031 then c.mat.aelog.toNat
    else if n = 0x032 then c.wbstat
    else if 0x040 ≤ n ∧ n < 0x060 then
      let b := Tbl.get {} c.tabs.bk ((n - 0x040) / 4)
      match (n - 0x040) % 4 with | 0 => b.pc.toNat | 1 => b.sel.toNat | 2 => b.val.toNat | _ => b.ctl.toNat
    else if n = 0x060 then c.ctl.errwin
    else if 0x061 ≤ n ∧ n < 0x070 then (Tbl.get {} c.ctl.errs (n - 0x061)).word
    else if 0x080 ≤ n ∧ n < 0x0A0 then
      (if n % 2 = 0 then Tbl.get 0 c.ctl.pcsel ((n - 0x080) / 2) else Tbl.get 0 c.ctl.pcval ((n - 0x080) / 2)).toNat
    else if n = 0x0A0 then c.ctl.ssctl
    else if 0x0A8 ≤ n ∧ n < 0x0C0 then
      let j := Tbl.get {} c.ctl.samples ((n - 0x0A8) / 3)
      match (n - 0x0A8) % 3 with | 0 => j.spc.toNat | 1 => j.sbl.toNat | _ => j.sinf.toNat
    else 0
  BitVec.ofNat 64 x

/-- A write of a core register (R61, R62, R349, R374 to R376): reserved bits are dropped, limits applied. -/
def Core.sysWrite (c : Core) (n : Nat) (v : Word) : Core :=
  let ctl := c.ctl
  if n = 0x030 then { c with ctl := { ctl with spinth := max 16 (min 1024 (v.toNat % 2048)) } }
  else if n = 0x031 then { c with mat := { c.mat with aelog := 0 } }
  else if 0x040 ≤ n ∧ n < 0x060 then
    { c with tabs := { c.tabs with bk := Tbl.upd {} c.tabs.bk ((n - 0x040) / 4) (fun b =>
      match (n - 0x040) % 4 with
      | 0 => { b with pc := pcMask v }
      | 1 => { b with sel := v &&& 0xFFFF }
      | 2 => { b with val := v }
      | _ =>
        let w := v &&& 0xFFFC_0000_0000_FFFF
        { b with ctl := if b.ok w then w else w &&& 0x7FFF_FFFF_FFFF_FFFF }) } }
  else if n = 0x060 then { c with ctl := { ctl with errwin := v.toNat % 2 ^ 32 } }
  else if 0x061 ≤ n ∧ n < 0x070 then
    { c with ctl := { ctl with errs := Tbl.upd {} ctl.errs (n - 0x061) (fun e =>
      { e with ce := natBits v.toNat 48 16, ue := natBits v.toNat 40 8, last := v.getLsbD 39
               times := e.times.drop (e.times.length - natBits v.toNat 40 8) }) } }
  else if 0x080 ≤ n ∧ n < 0x0A0 then
    if n % 2 = 0 then
      { c with ctl := { ctl with pcsel := Tbl.set 0 ctl.pcsel ((n - 0x080) / 2) (v &&& 0xFFC0_0000_0000_003F) } }
    else { c with ctl := { ctl with pcval := Tbl.set 0 ctl.pcval ((n - 0x080) / 2) v } }
  else if n = 0x0A0 then
    { c with ctl := { ctl with ssen := v.getLsbD 63, ssper := max 64 (v.toNat % 2 ^ 20) } }
  else if 0x0A8 ≤ n ∧ n < 0x0C0 ∧ (n - 0x0A8) % 3 = 0 then
    { c with ctl := { ctl with samples := Tbl.set {} ctl.samples ((n - 0x0A8) / 3) {} } }
  else c


/-- What SRD reads (R59 to R62, R371). -/
def State.sysRead (s : State) (n : Nat) : Word :=
  let t := s.tm
  if n = 0x000 then BitVec.ofNat 64 idReg
  else if n = 0x001 then BitVec.ofNat 64 (coreIdReg s.ck)
  else if n = 0x002 then BitVec.ofNat 64 (s.slot % 16 * 16 + t.id.tidx % 16)
  else if n = 0x010 then (s.die (dieOfCore s.ck)).clk.cyc
  else if n = 0x011 then (s.die (dieOfCore s.ck)).clk.cycn
  else if n = 0x020 then t.regs.tstat.zeroExtend 64
  else if n = 0x021 then t.regs.sig.zeroExtend 64
  else if n = 0x022 then BitVec.ofNat 64 t.regs.ycnt
  else if n = 0x023 then BitVec.ofNat 64 t.rgns
  else s.cr.sysRead n

/-- What SWR writes (R59, R92); the status bits that completions of the same cycle set are ORed in after it (R40). -/
def State.sysWrite (s : State) (n : Nat) (v : Word) : State :=
  if n = 0x020 then s.onRegs (fun r => { r with tstat := (v.truncate 32 &&& 0xFFF) ||| r.edge })
  else s.onCore s.ck (fun c => c.sysWrite n v)

end Sys2Proof.Machine
end

