-- ==== Sys2Proof/Machine/Path.lean ====
section
/-! DEFINITION. The running path of a team: divergence and join (06 R114 to R116). -/

namespace Sys2Proof.Machine

/-- A push on the reconvergence stack with its fold and event (R114, R127, R319). -/
def State.pushPath (s : State) (jpc ppc : Word) (m : LaneBits) (tgt : Option Word) (ipc : Word) : State :=
  let s := s.onPath (fun p => { p with stack := { jpc, ppc, mask := Mask.of m, tgt } :: p.stack })
  (s.foldSig 0x200).emitTm 0x01 (s.tm.path.stack.length * 2 ^ 58 + pcBits ipc) false

/-- The running path continues with these lanes at a PC. -/
def State.runPath (s : State) (m : LaneBits) (pc : Word) : State :=
  s.onPath (fun p => { p with mask := Mask.of m, pc := pc })

/-- The result of the join test (R115). -/
inductive JoinStep where
  | issue
  | swap
  | join
  | done
deriving DecidableEq, Repr

/-- The join test of a path against the top entry. -/
def joinStep (p : TeamPath) : JoinStep :=
  match p.stack with
  | [] => if p.mask.sect = 0 then .done else .issue
  | e :: _ =>
    if p.pc = e.jpc ∨ p.mask.sect = 0 then (if e.ppc = e.jpc then .join else .swap) else .issue

/-- Mask conservation at a join (R116): the fault, or none. -/
def joinCheck (n : Nat) (run wait : Mask) : Option FaultReq :=
  let both := run.sect &&& wait.sect
  let high := (run.sect ||| wait.sect) &&& ~~~lanesBelow n
  if both = 0 ∧ high = 0 ∧ run.summ = summOf run.sect ∧ wait.summ = summOf wait.sect then none
  else
    let bad := both ||| high
    let l := (lanesOf 1024 bad).headD 0
    some (faultOf 0x0A 0 0 (run.summ.toNat + wait.summ.toNat * 2 ^ 32 + l * 2 ^ 64))

/-- One step of the join test of the issuing team (R115): the state, and whether the test goes on. A path that is popped with an empty
mask writes no event (R320). A failed check waits for a fault that the team has met in its fault window (log 126). The joined path keeps the spin count
and the remembered target of the path that arrived last, which the spec leaves open: the model's choice (log 105). -/
def State.joinOnce (s : State) : State × Bool :=
  let p := s.tm.path
  match joinStep p, p.stack with
  | .swap, e :: es =>
    let s := s.onPath (fun p => { p with stack := { e with ppc := e.jpc, mask := p.mask, tgt := p.tgt } :: es
                                         mask := e.mask, pc := e.ppc, spin := 0, tgt := e.tgt })
    (s.foldSig 0x201, true)
  | .join, e :: es =>
    match if s.tm.flt.skip then none else joinCheck s.tm.id.lanes p.mask e.mask with
    | some fr =>
      let u := (p.mask.sect ||| e.mask.sect) &&& lanesBelow s.tm.id.lanes
      if s.tm.flt.win.isSome then (s, false)
      else
      let s := s.onPath (fun p => { p with pc := e.jpc })
      let s := s.countUe s.ck 2
      let s := s.onTm (·.setRpm u)
      let (s, h) := s.teamRecord s.ck s.slot e.jpc { fr with rpm := u } (countLanes s.nl u)
      (s.onTm (fun t => { t with
        st := 2
        flt := { t.flt with pf := true, fpc := e.jpc, handle := BitVec.ofNat 32 h, hdie := dieOfCore s.ck, code := 0x0A
                            atIssue := true, replay := false, unissued := true, win := none, winFly := 0 } }), false)
    | none =>
      let s := s.onPath (fun p => { p with mask := Mask.of ((p.mask.sect ||| e.mask.sect) &&& lanesBelow s.tm.id.lanes)
                                           pc := e.jpc, stack := es })
      let s := s.onTm (Team.onFlt · (fun f => { f with skip := false }))
      let s := s.foldSig 0x202
      (if e.mask.sect = 0 then s else s.emitTm 0x02 (es.length * 2 ^ 58 + pcBits e.jpc) false, true)
  | _, _ => (s, false)

/-- Whether the running path stands at a join that is not made: its check waits (log 126), or the team has no lane left. -/
def TeamPath.atJoin (p : TeamPath) : Bool := joinStep p != .issue

/-- The join test repeated (R115); the stack bounds it: each entry is swapped at most once and joined at most once. -/
def State.joinAll : Nat → State → State
  | 0, s => s
  | n + 1, s =>
    let (s, more) := s.joinOnce
    if more then s.joinAll n else s

end Sys2Proof.Machine
end

