-- ==== Sys2Proof/Machine/Fetch.lean ====
section
/-! DEFINITION. Instruction fetch (10 R241): translation with X, the instruction cache, uncorrectable words, and the check of an
indirect target (06 R117). -/

namespace Sys2Proof.Machine

/-- The page through which a tenant fetches: what a line of the instruction cache is filled for, and goes with (R241). -/
def pageTag (tenant va : Nat) : Nat := tenant * 2 ^ 44 + va / 65536 % 2 ^ 44

/-- The line of the instruction cache that serves a physical line to a page: present and not evicted since. A line that was filled for
another page is fetched again. -/
def State.iLine (s : State) (k tag ln : Nat) : Option Line :=
  let l := Tbl.get {} (s.core k).tabs.icache ln
  if l.data = [] ∨ l.tag ≠ tag then none
  else if l.data = s.homeLine ln then some l
  else if Config.evicted s.seq (ln + 2 ^ 50) then none else some l

/-- Where the word at a PC lies: the physical address and leaf, or the fault. -/
def State.fetchPlace (s : State) (k tenant : Nat) (pc : Word) : Except AccErr (PByte × Nat) := do
  let e ← s.translate k tenant pc.toNat false false true
  let b := s.pbyte e pc.toNat
  if !s.exists_ b then throw { code := 0x13 }
  if !(windowOk false false (s.region b)) then throw { code := 0x18 }
  if pteFmt e ≠ 0 then throw { code := 0x16 }
  pure (b, e)

/-- The word at a place and whether it is uncorrectable (R241). -/
def State.fetchAt (s : State) (k tag : Nat) (b : PByte) : Word × Bool :=
  let bs : List PByte := (List.range 8).map (fun i => { b with pa := b.pa + i })
  let home := s.seeBytes k 0 bs
  match b.dev, s.iLine k tag (b.pa / 128) with
  | none, some l => (BitVec.ofNat 64 (leNat ((List.range 8).map (fun i => l.data.getD (b.pa % 128 + i) 0))), false)
  | _, _ => (BitVec.ofNat 64 (leNat home.1), home.2)

/-- The instruction cache after a fetch through a leaf of so many 64 KiB pages: a miss fills the line (R241). -/
def State.iTouch (s : State) (k tag pages : Nat) (b : PByte) : State :=
  let ln := b.pa / 128
  if b.dev.isSome || !(s.region b).plain || (s.iLine k tag ln).isSome then s
  else if s.mem.unc (128 * ln) 128 then s.onTabs k (fun t => { t with icache := Tbl.erase ln t.icache })
  else s.onTabs k (fun t => { t with icache := fillLine iLines s.seq 2 t.icache ln { data := s.homeLine ln, tag, pages } })

/-- Whether a target may be jumped to (R117 item 1): address bits, executable page, a LAND instruction. That a word in an uncorrectable
granule counts as no LAND is the model's choice (log 106): R241 and R386 speak of a word that is fetched. -/
def State.landAt (s : State) (w : Word) : Bool :=
  pcMask w == w &&
    match s.fetchPlace s.ck s.tm.id.tenant w with
    | .error _ => false
    | .ok (b, _) =>
      let (x, bad) := s.fetchAt s.ck (pageTag s.tm.id.tenant w.toNat) b
      !bad && match decode x with | .ok (.land ..) => true | _ => false

/-- The pages of targets whose translation failed (R341). -/
def State.landDrops (s : State) (ws : List Word) : List Nat :=
  ws.filterMap (fun w => match s.fetchPlace s.ck s.tm.id.tenant w with
    | .error e => if pcMask w = w ∧ e.walked then some e.page else none
    | .ok _ => none)

/-- What the check of a target that may be jumped to leaves in the TLBs (R341); PC + 8 is not checked. -/
def State.landTouch (s : State) (w : Word) : State :=
  if w = nextPc s.ipc then s
  else match s.fetchPlace s.ck s.tm.id.tenant w with
    | .error _ => s
    | .ok (_, e) => s.noteTlb s.ck s.tm.id.tenant w.toNat e

end Sys2Proof.Machine
end

