-- ==== Sys2Proof/Machine/Control.lean ====
section
/-! DEFINITION. The control range (06 R111 to R134). -/

namespace Sys2Proof.Machine

/-- NOP (R111). -/
def execNop (h : Head) (o : FmtA) (s : State) : Out := .next (s.issue (.nop h o) true false .ok)

/-- Target and Join of format B (R99). -/
def goalOf (o : FmtB) (ipc : Word) : Word := pcMask (ipc + (o.target.signExtend 64 <<< 3))
def joinOf (o : FmtB) (ipc : Word) : Word := pcMask (ipc + (o.join.zeroExtend 64 <<< 3))

/-- The summary word of a divergence check (R114): T and F partition the mask. -/
def partitionOk (m t f : LaneBits) : Bool := t &&& f == 0 && (t ||| f) == m

/-- BRA for a team (R114). -/
def braTeam (o : FmtB) (g : BitVec 4) : Body := fun s =>
  let ipc := s.ipc
  let m := s.active
  let t := s.servedNow g
  let f := m &&& ~~~t
  let target := goalOf o ipc
  let next := nextPc ipc
  if t = 0 then .ok (s.setPc next)
  else if f = 0 then .ok ((s.setPc target).spinBack ipc target)
  else if target = next then .ok (s.setPc next)
  else if o.join = 0 then .error (faultOf 0x09)
  else if 32 ≤ s.tm.path.stack.length then .error (faultOf 0x08 0 0 (s.tm.path.stack.length + 2 * 64))
  else if !partitionOk m t f then
    .error (faultOf 0x0A 0 0 ((summOf m).toNat + (summOf (t ||| f)).toNat * 2 ^ 32))
  else
    let join := joinOf o ipc
    if target.toNat < next.toNat then
      .ok (((s.pushPath join next f s.tm.path.tgt ipc).runPath t target).spinBack ipc target)
    else
      .ok (((s.pushPath join target t s.tm.path.tgt ipc).runPath f next))

def execBra (h : Head) (o : FmtB) (s : State) : Out :=
  .next (s.issue (.bra h o) false true (fun s =>
    match s.cur with
    | .team .. => braTeam o h.guard s
    | .gath .. => .ok (s.setPc (goalOf o s.ipc))))

/-- A branch of the whole path (R113). -/
def branchAll (o : FmtB) (taken : Bool) (s : State) : State :=
  let ipc := s.ipc
  if taken then (s.setPc (goalOf o ipc)).spinBack ipc (goalOf o ipc) else s.setPc (nextPc ipc)

/-- BRS (R113): in a gatherer, when gs1 is not zero (R308). -/
def execBrs (h : Head) (o : FmtB) (s : State) : Out :=
  .next (s.issue (.brs h o) false true (fun s =>
    .ok (branchAll o (match s.cur with | .team .. => s.servedNow h.guard != 0 | .gath .. => s.rs 1 != 0) s)))

/-- BRC (R113): in a gatherer, when gs1 is zero (R308). -/
def execBrc (h : Head) (o : FmtB) (s : State) : Out :=
  .next (s.issue (.brc h o) false true (fun s =>
    .ok (branchAll o (match s.cur with | .team .. => s.servedNow h.guard == s.active | .gath .. => s.rs 1 == 0) s)))

/-- Vector operands read in lanes: a poisoned one is consumed (R42). -/
def State.readV (s : State) (r : Nat) (ls : List Nat) : Except FaultReq (List (Nat × Word)) :=
  match ls.find? (fun l => (s.rv r l).pz) with
  | some l => .error (poison 0 r l)
  | none => .ok (ls.map (fun l => (l, (s.rv r l).val)))

/-- Distinct targets in rising order with their lanes (R117). -/
def splitTargets (ts : List (Nat × Word)) : List (Word × LaneBits) :=
  let ds := ((ts.map (fun t => t.2.toNat)).dedup).foldr insertAsc []
  ds.map (fun d => (BitVec.ofNat 64 d, maskOf ((ts.filter (fun t => t.2.toNat == d)).map Prod.fst)))

/-- The indirect-target fault of the lanes whose target failed (R117, R379). -/
def targetFault (bad : List (Nat × Word)) : FaultReq :=
  let low := (bad.map (fun b => b.2.toNat)).foldr min (2 ^ 64 - 1)
  faultOf 0x0B 0 low (bad.length % 2048 * 2 ^ 10 + (bad.map Prod.fst).headD 0)

/-- JMPI (R117). -/
def jmpiTeam (o : FmtA) (g : BitVec 4) : Body := fun s => do
  let ipc := s.ipc
  let next := nextPc ipc
  let live := lanesOf s.nl (s.served g)
  let vals ← s.readV o.a.toNat live
  let bad := vals.filter (fun v => v.2 != next && !s.landAt v.2)
  failIf (!bad.isEmpty) { targetFault bad with drops := s.landDrops (bad.map Prod.snd) }
  let s := vals.foldl (fun s v => s.landTouch v.2) s
  let rest := (lanesOf s.nl (s.active &&& ~~~(s.served g))).map (fun l => (l, next))
  let sets := splitTargets (vals ++ rest)
  let join := s.rs o.b.toNat
  let k := sets.length
  failIf (decide (1 < k) && o.b == 0) (faultOf 0x09)
  failIf (decide (1 < k) && join == 0) (faultOf 0x09)
  failIf (decide (1 < k) && pcMask join != join) (faultOf 0x07 0 join.toNat)
  failIf (decide (1 < k) && decide (32 < s.tm.path.stack.length + k - 1))
    (faultOf 0x08 0 0 (s.tm.path.stack.length + k * 64))
  match sets with
  | [] => pure (s.setPc next)
  | (w, m) :: others =>
    let tgt := s.tm.path.tgt
    let s := others.reverse.foldl (fun s e => s.pushPath join e.1 e.2 tgt ipc) s
    let s := if k = 1 then s.setPc w else s.runPath m w
    pure (s.spinBack ipc w)

def execJmpi (h : Head) (o : FmtA) (s : State) : Out := .next (s.issue (.jmpi h o) false true (jmpiTeam o h.guard))

/-- The checked scalar target of JMPI.u and CALLI (R117 item 1): PC + 8 is not checked. -/
def State.scalarTarget (s : State) (w : Word) (g : BitVec 4) : Except FaultReq Unit :=
  if w == nextPc s.ipc || s.landAt w then .ok ()
  else
    let ls := s.lanesNow g
    .error { faultOf 0x0B 0 w.toNat (ls.length % 2048 * 2 ^ 10 + ls.headD 0) with drops := s.landDrops [w] }

def execJmpiU (h : Head) (o : FmtA) (s : State) : Out :=
  .next (s.issue (.jmpiU h o) true true (fun s => do
    let ipc := s.ipc
    let w := s.rs o.a.toNat
    s.scalarTarget w h.guard
    pure (((s.landTouch w).setPc w).spinBack ipc w)))

/-- LAND (R118): sets SIG. -/
def execLand (h : Head) (o : FmtS) (s : State) : Out :=
  .next (s.issue (.land h o) false false (fun s =>
    match s.cur with
    | .team .. => .ok (s.onRegs (fun r => { r with sig := o.imm }))
    | .gath .. => .ok s))

/-- CALL (R119). -/
def execCall (h : Head) (o : FmtL) (s : State) : Out :=
  .next (s.issue (.call h o) true true (fun s =>
    let ipc := s.ipc
    .ok ((s.ws o.d.toNat (nextPc ipc)).setPc (pcMask (ipc + (o.imm.signExtend 64 <<< 3))))))

/-- CALLI (R119). -/
def execCalli (h : Head) (o : FmtA) (s : State) : Out :=
  .next (s.issue (.calli h o) true true (fun s => do
    let ipc := s.ipc
    let w := s.rs o.a.toNat
    s.scalarTarget w h.guard
    pure (((s.landTouch w).ws o.d.toNat (nextPc ipc)).setPc w)))

/-- RET (R119). -/
def execRet (h : Head) (o : FmtA) (s : State) : Out :=
  .next (s.issue (.ret h o) true true (fun s =>
    let w := s.rs o.a.toNat
    if pcMask w = w then .ok (s.setPc w) else .error (faultOf 0x07 0 w.toNat)))

/-- The loop registers of the issuing agent, innermost first. -/
def State.loopRegs (s : State) : List LoopReg := match s.cur with | .team .. => s.tm.path.loops | .gath .. => s.gt.loops

/-- A loop opened (R120). -/
def openLoop (count : Word32) (imm : BitVec 19) : Body := fun s =>
  let ipc := s.ipc
  let last := pcMask (ipc + (imm.zeroExtend 64 <<< 3))
  if count = 0 then .ok (s.setPc (nextPc last))
  else if 4 ≤ s.loopRegs.length then .error (faultOf 0x0C)
  else
    let l : LoopReg := { start := nextPc ipc, last := last, count := count }
    let s := match s.cur with
      | .team .. => s.onPath (fun p => { p with loops := l :: p.loops })
      | .gath .. => s.onGt (fun g => { g with loops := l :: g.loops })
    .ok (s.setPc (nextPc ipc))

def execLoop (h : Head) (o : FmtI) (s : State) : Out :=
  .next (s.issue (.loop h o) true true (fun s => openLoop ((s.rs o.a.toNat).truncate 32) o.imm s))

def execLoopx (h : Head) (o : FmtI) (s : State) : Out :=
  .next (s.issue (.loopx h o) true true (fun s => openLoop (BitVec.ofNat 32 (o.d.toNat * 64 + o.a.toNat)) o.imm s))

/-- YIELD (R123): YCNT returns to 0; under a pre-emption request the team parks. A LIVE above the budget is an illegal field. -/
def execYield (h : Head) (o : FmtL) (s : State) : Out :=
  .next (s.issue (.yield h o) true false (fun s =>
    let live := o.imm.toNat % 128
    let s := s.onRegs (fun r => { r with ycnt := 0 })
    if s.grpOf.saving then
      let pc := pcBits s.ipc
      let s := s.onTm (fun t => { t with park := true, live := live, acc := o.imm.getLsbD 7 })
      .ok (s.emitTm 0x05 (live * 2 ^ 57 + pc) true)
    else .ok s))

/-- EXIT (R122): the guarded lanes leave; in a gatherer, its program ends (R307). -/
def execExit (h : Head) (o : FmtA) (s : State) : Out :=
  .next (s.issue (.exit h o) false false (fun s =>
    match s.cur with
    | .team .. =>
      let out := s.servedNow h.guard
      .ok (s.onPath (fun p => { p with mask := Mask.of (p.mask.sect &&& ~~~out) }))
    | .gath k g => .ok (s.endGath k g false)))

/-- TRAP (R124). -/
def execTrap (h : Head) (o : FmtL) (s : State) : Out :=
  .next (s.issue (.trap h o) true false (fun _ => .error (faultOf 0x0E 0 0 o.imm.toNat)))

/-- The ERES event of a resolution that changes a record (R319), of the team and tenant of the record: resolver 0 a supervisor team, 1 the
host. -/
def State.resolve (s : State) (d handle action who : Nat) : State :=
  match (s.die d).fq.recs.find? (fun r => r.pend && r.handle.toNat == handle) with
  | none => s
  | some r =>
    if action = 3 ∨ (action = 1 ∧ 2 ≤ r.agent) then s
    else
      let s := s.resolveRec d handle action
      let k := if r.core < 192 then r.core else s.lowCore d
      s.emit k 0x11 r.tslot r.tenant (handle * 2 ^ 32 + action * 2 ^ 30 + who * 2 ^ 28) true

/-- ERET (R125): only a supervisor team; other bits of its operands must be zero. -/
def execEret (h : Head) (o : FmtA) (s : State) : Out :=
  .next (s.issue (.eret h o) false false (fun s =>
    if !s.tm.id.prv then .error (privilege)
    else if s.servedNow h.guard = 0 then .ok s
    else
      let a := (s.rs o.a.toNat).toNat
      let b := (s.rs o.b.toNat).toNat
      if a / 2 ^ 34 ≠ 0 ∨ b / 4 ≠ 0 then .ok s
      else .ok (s.resolve (a / 2 ^ 32 % 4) (a % 2 ^ 32) (b % 4) 0)))

/-- HALT (R124). -/
def execHalt (h : Head) (o : FmtA) (s : State) : Out :=
  .next (s.issue (.halt h o) true false (fun _ => .error (faultOf 0x10 0 0 o.c.toNat)))

/-- BRK (R124). -/
def execBrk (h : Head) (o : FmtL) (s : State) : Out :=
  .next (s.issue (.brk h o) true false (fun _ => .error (faultOf 0x0F 0 0 (o.imm.toNat % 65536))))

/-- SIGCK (R128); a mismatch counts as an error of the team's control state (R389). -/
def execSigck (h : Head) (o : FmtS) (s : State) : Out :=
  let miss := !s.isGath && (instrInfo (.sigck h o)).legal s.tm.id.budget && s.tm.regs.sig != o.imm
  let s := if miss then s.countUe s.ck 2 else s
  .next (s.issue (.sigck h o) false false (fun s =>
    if s.tm.regs.sig = o.imm then .ok s
    else .error (faultOf 0x0D 0 0 (s.tm.regs.sig.toNat + o.imm.toNat * 2 ^ 32))))

/-- The region event (R319). -/
def State.regionEvent (s : State) (ty id : Nat) (rov : Bool) : State :=
  s.emitTm ty (id * 2 ^ 48 + s.tm.regs.regions.length * 2 ^ 44 + rov.toNat * 2 ^ 43) false

/-- RGNE (R51, R129). -/
def execRgne (h : Head) (o : FmtL) (s : State) : Out :=
  .next (s.issue (.rgne h o) true false (fun s =>
    let id := o.imm.toNat % 65536
    let full := decide (8 ≤ s.tm.regs.regions.length)
    let rov := full || s.tm.regs.tstat.getLsbD 11
    let s := s.onRegs (fun r => { r with regions := (BitVec.ofNat 16 id :: r.regions).take 8 })
    let s := if full then s.stat stROV else s
    .ok (s.regionEvent 0x03 id rov)))

/-- RGNL (R51, R129). -/
def execRgnl (h : Head) (o : FmtA) (s : State) : Out :=
  .next (s.issue (.rgnl h o) true false (fun s =>
    let id := s.tm.tops.1
    let s := s.onRegs (fun r => { r with regions := r.regions.drop 1 })
    .ok (s.regionEvent 0x04 id (s.tm.regs.tstat.getLsbD 11))))

/-- MARK (R51, R129): a trace record when block tracing is enabled on the core. That the team's identifiers are its group reference and
its slot is the model's choice (log 33). -/
def execMark (h : Head) (o : FmtS) (s : State) : Out :=
  .next (s.issue (.mark h o) false false (fun s =>
    if s.cr.rcd.trace then
      let r : TraceRec := { imm := o.imm.toNat, gref := s.tm.id.gref, slot := s.slot, rtop := s.tm.tops.1, rnext := s.tm.tops.2 }
      .ok (s.onCore s.ck (fun c => { c with rcd := { c.rcd with marks := c.rcd.marks ++ [r] } }))
    else .ok s))

/-- WAITF (R130). -/
def execWaitf (h : Head) (o : FmtW) (s : State) : Out :=
  .next (s.issue (.waitf h o) true false (fun s =>
    if (s.tm.flag o.obj.toNat).count ≤ o.count.toNat then .ok (s.ws o.d.toNat 0)
    else .ok (s.beginWait (.flag o.obj.toNat o.count.toNat) o.d.toNat o.t.toNat false)))

/-- Writes a scalar from a number. -/
def State.wsn (s : State) (r n : Nat) : State := s.ws r (BitVec.ofNat 64 n)

/-- VOTE (R131). -/
def execVote (h : Head) (o : FmtA) (s : State) : Out :=
  .next (s.issue (.vote h o) false false (fun s =>
    let ls := s.lanes h.guard
    let yes := ls.filter (s.rp o.a.toNat)
    let mode := o.c.toNat % 4
    let res : Nat := match mode with
      | 0 => (yes.length == ls.length).toNat
      | 1 => (!yes.isEmpty).toNat
      | 2 => yes.length
      | _ =>
        let k := (s.rs o.b.toNat).toNat % 16
        (yes.filter (fun l => l / 64 == k)).foldl (fun a l => a + 2 ^ (l % 64)) 0
    if o.c.toNat / 4 % 2 = 1 then .ok (s.wp o.d.toNat (maskOf ls) (if res = 1 then maskOf ls else 0))
    else .ok (s.wsn o.d.toNat res)))

/-- ELECT (R132). -/
def execElect (h : Head) (o : FmtA) (s : State) : Out :=
  .next (s.issue (.elect h o) false false (fun s =>
    let ls := s.lanes h.guard
    match ls with
    | [] => .ok (s.ws o.d.toNat 0xFFFF_FFFF_FFFF_FFFF)
    | l :: _ => .ok ((s.wp o.a.toNat (maskOf ls) (maskOf [l])).wsn o.d.toNat l)))

/-- The fields of the work identifier of a lane, with their widths (R19, R20). -/
def widFields (hdr : BitVec 512) (gidx tidx lane : Nat) : List (Nat × Nat) :=
  let e2 := recBits hdr 192 32
  let e3 := recBits hdr 224 12
  let e4 := recBits hdr 236 12
  [(lane, recBits hdr 265 7), (tidx, recBits hdr 272 7), (gidx % e2, recBits hdr 279 7), (gidx / e2 % e3, recBits hdr 286 7),
   (gidx / (e2 * e3) % e4, recBits hdr 293 7), (gidx / (e2 * e3 * e4), recBits hdr 300 7)]

/-- The work identifier from its fields. -/
def widWord (fs : List (Nat × Nat)) : Nat := (fs.foldl (fun (a : Nat × Nat) f => (a.1 + f.1 * 2 ^ a.2, a.2 + f.2)) (0, 0)).1

/-- WIDR (R133). -/
def execWidr (h : Head) (o : FmtA) (s : State) : Out :=
  .next (s.issue (.widr h o) false false (fun s =>
    let g := s.grpOf
    let t := s.tm.id
    .ok (s.wv o.d.toNat ((s.lanes h.guard).map (fun l =>
      let fs := widFields g.hdr g.gidx t.tidx l
      let v := match o.c.toNat with
        | 0 => widWord fs
        | c => (fs.getD (c - 1) (0, 0)).1
      (l, { val := BitVec.ofNat 64 v }))))))

/-- MASKR (R133). -/
def execMaskr (h : Head) (o : FmtA) (s : State) : Out :=
  .next (s.issue (.maskr h o) false false (fun s =>
    let m := if o.c = 0 then s.tm.path.mask else Mask.of s.tm.regs.rpm
    .ok (s.wv o.d.toNat ((s.lanes h.guard).map (fun l =>
      (l, { val := BitVec.ofNat 64 (m.sect.toNat / 2 ^ (32 * (l / 32)) % 2 ^ 32 * 2 ^ 32 + m.summ.toNat) }))))))

/-- SRD (R59, R134). -/
def execSrd (h : Head) (o : FmtI) (s : State) : Out :=
  .next (s.issue (.srd h o) false false (fun s =>
    let n := o.imm.toNat % 4096
    if s.isGath && !([0x000, 0x001, 0x010, 0x011].contains n) then .error illegal
    else if sysPriv n && !s.tm.id.prv then .error (privilege n)
    else if s.servedNow h.guard = 0 then .ok s
    else .ok (s.ws o.d.toNat (s.sysRead n))))

/-- SWR (R59, R134). -/
def execSwr (h : Head) (o : FmtI) (s : State) : Out :=
  .next (s.issue (.swr h o) false false (fun s =>
    let n := o.imm.toNat % 4096
    if n != 0x020 && !s.tm.id.prv then .error (privilege n)
    else if s.servedNow h.guard = 0 then .ok s
    else .ok (s.sysWrite n (s.rs o.a.toNat))))

end Sys2Proof.Machine
end

