-- ==== Sys2Proof/Machine/Operands.lean ====
section
/-! DEFINITION. Operand forms of the computing ranges (07 R135 to R137): sub-elements, lanes, poison, and the shared shapes of
scalar, lane-wise and cross-lane instructions. -/

namespace Sys2Proof.Machine

/-- Sub-element `k` of width `w` (R41). -/
def sub (w k x : Nat) : Nat := x / 2 ^ (w * k) % 2 ^ w

/-- Sub-elements packed from bit 0 upwards (R41). -/
def pack (w : Nat) (xs : List Nat) : Nat := xs.foldr (fun x a => x % 2 ^ w + 2 ^ w * a) 0

/-- Applies an operation to each sub-element; the word and the status bits. -/
def perSub (w : Nat) (vals : List Nat) (f : List Nat → Nat × Nat) : Nat × Nat :=
  let rs := (List.range (64 / w)).map (fun k => f (vals.map (sub w k)))
  (pack w (rs.map Prod.fst), rs.foldl (fun a r => a ||| r.2) 0)

/-- A source of a lane operation: a scalar for every lane, or a vector register. -/
inductive Src where
  | s (r : Nat)
  | v (r : Nat)
deriving DecidableEq, Repr

/-- Operand B of format A (R96). -/
def srcB (o : FmtA) : Src := if o.bs then .s o.b.toNat else .v o.b.toNat
def srcA (o : FmtA) : Src := .v o.a.toNat
def srcC (o : FmtA) : Src := .v o.c.toNat
def srcD (o : FmtA) : Src := .v o.d.toNat

/-- A source in a lane. -/
def State.src (s : State) (l : Nat) : Src → Nat
  | .s r => (s.rs r).toNat
  | .v r => (s.rv r l).val.toNat

/-- The first poisoned vector source of a lane. -/
def State.pzSrc (s : State) (l : Nat) : List Src → Option Nat
  | [] => none
  | .s _ :: t => s.pzSrc l t
  | .v r :: t => if (s.rv r l).pz then some r else s.pzSrc l t

/-- Consumed poison among sources in lanes (R42). -/
def State.noPoison (s : State) (ls : List Nat) (srcs : List Src) : Except FaultReq Unit :=
  match ls.findSome? (fun l => (s.pzSrc l srcs).map (fun r => (r, l))) with
  | some (r, l) => .error (poison 0 r l)
  | none => .ok ()

/-- A lane-wise instruction (R135): each served lane's result from its sources, written to vector `d` with poison clear. -/
def State.laneWise (s : State) (g : BitVec 4) (d : Nat) (srcs : List Src) (f : Nat → List Nat → Nat × Nat) :
    Except FaultReq State := do
  let ls := s.lanes g
  s.noPoison ls srcs
  let rs := ls.map (fun l => (l, f l (srcs.map (s.src l))))
  let s' := s.wv d (rs.map (fun r => (r.1, { val := BitVec.ofNat 64 r.2.1 })))
  pure (s'.stat (rs.foldl (fun a r => a ||| r.2.2) 0))

/-- A lane-wise instruction per sub-element of width `w`. -/
def State.subWise (s : State) (g : BitVec 4) (d w : Nat) (srcs : List Src) (f : List Nat → Nat × Nat) : Except FaultReq State :=
  s.laneWise g d srcs (fun _ vs => perSub w vs f)

/-- A comparison written to predicate `d` in each served lane. -/
def State.predWise (s : State) (g : BitVec 4) (d : Nat) (srcs : List Src) (f : List Nat → Bool × Nat) : Except FaultReq State := do
  let ls := s.lanes g
  s.noPoison ls srcs
  let rs := ls.map (fun l => (l, f (srcs.map (s.src l))))
  let s' := s.wp d (maskOf ls) (maskOf ((rs.filter (fun r => r.2.1)).map Prod.fst))
  pure (s'.stat (rs.foldl (fun a r => a ||| r.2.2) 0))

/-- First of two operands, and so on. -/
def x0 (l : List Nat) : Nat := l.getD 0 0
def x1 (l : List Nat) : Nat := l.getD 1 0
def x2 (l : List Nat) : Nat := l.getD 2 0
def x3 (l : List Nat) : Nat := l.getD 3 0

/-- An exact integer result wrapped, or clamped with SAT (R64, R145). -/
def intRes (sat signed : Bool) (w : Nat) (v : Int) : Nat × Nat :=
  if sat then
    let (c, cl) := clampInt signed w v
    (wrapInt w c, if cl then stSAT else 0)
  else (wrapInt w v, 0)

/-- An integer operation of two operands per sub-element of a type. -/
def intBin (t : Nat) (sat : Bool) (f : Int → Int → Int) (l : List Nat) : Nat × Nat :=
  let w := tyWidth t
  let sg := isSigned t
  intRes sat sg w (f (toInt sg w (x0 l)) (toInt sg w (x1 l)))

/-- The conditions of R141: equal, not equal, less, less or equal, greater, greater or equal. -/
def condInt (c : Nat) (a b : Int) : Bool :=
  match c with
  | 0 => decide (a = b)
  | 1 => decide (a ≠ b)
  | 2 => decide (a < b)
  | 3 => decide (a ≤ b)
  | 4 => decide (a > b)
  | _ => decide (a ≥ b)

/-- A scalar instruction of two sources. -/
def scalar2 (o : FmtA) (f : Nat → Nat → Nat × Nat) : Body := fun s =>
  let r := f (s.rs o.a.toNat).toNat (s.rs o.b.toNat).toNat
  .ok ((s.wsn o.d.toNat r.1).stat r.2)

/-- Leading zeros of a w-bit value. -/
def clz (w x : Nat) : Nat := if x % 2 ^ w = 0 then w else w - 1 - (x % 2 ^ w).log2

/-- Set bits of a w-bit value. -/
def popcount (w x : Nat) : Nat := ((List.range w).filter (fun i => x.testBit i)).length

/-- Element `e` of a vector register across the team, read in core cycle `cyc` (R41, R91). -/
def State.elem (s : State) (cyc t r e : Nat) : Nat :=
  let n := tySubs t
  sub (tyWidth t) (e % n) (s.rvAt cyc r (e / n)).val.toNat

/-- Whether element `e` lies in a poisoned register. -/
def State.elemPz (s : State) (cyc t r e : Nat) : Bool := (s.rvAt cyc r (e / tySubs t)).pz

/-- Consumed poison among source elements, each with the cycle in which it is read (R136). -/
def State.noElemPoison (s : State) (t r : Nat) (es : List (Nat × Nat)) : Except FaultReq Unit :=
  match es.find? (fun e => s.elemPz e.1 t r e.2) with
  | some e => .error (poison 0 r (e.2 / tySubs t))
  | none => .ok ()

/-- A cross-lane instruction: each destination element of the served lanes takes a source element, read with the section of its
destination (R91, R136), or a fixed value. -/
def State.gather (s : State) (g : BitVec 4) (t d a : Nat) (ix : Nat → Nat → Option Nat) : Except FaultReq State := do
  let ls := s.lanes g
  let n := tySubs t
  let plan := ls.map (fun l => (l, (List.range n).map (fun k => ix l k)))
  s.noElemPoison t a (plan.flatMap (fun p => (p.2.filterMap id).map (fun e => (s.readCyc p.1, e))))
  pure (s.wv d (plan.map (fun p =>
    (p.1, { val := BitVec.ofNat 64 (pack (tyWidth t) (p.2.map (fun j => match j with | some e => s.elem (s.readCyc p.1) t a e | none => 0))) }))))

end Sys2Proof.Machine
end

