-- ==== Sys2Proof/Machine/LaneMem.lean ====
section
/-! DEFINITION. Lane accesses, scaled-tile accesses, atomics, fences and cache controls (12 R272 to R284). -/

namespace Sys2Proof.Machine

/-- Names an error by the address that met it. -/
def atAddr {α : Type} (a : Nat) (r : Except AccErr α) : Except AccErr α :=
  match r with
  | .error e => .error { e with addr := a }
  | .ok x => .ok x

/-- The checks of one lane's access (R274, R275). -/
def State.checkLane (s : State) (spaceS : Bool) (ea w : Nat) (q : Want) : Except AccErr Checked :=
  atAddr ea (if spaceS then s.checkS ea w q else s.checkG ea w q)

/-- A lane's access after its checks, with the leaves it used. -/
structure Planned where
  op : LaneOp
  leaves : List (Nat × Nat) := []
deriving DecidableEq, Repr

/-- A load of a lane (R276, R277). -/
def State.planLoad (s : State) (lane reg ty : Nat) (spaceS natural : Bool) (hint ea : Nat) : Except AccErr Planned := do
  let fp := tF.contains ty
  let c ← s.checkLane spaceS ea (tyWidth ty / 8) { natural, scaledTy := if fp then some ty else none, scaledBad := !fp }
  if c.scaled ≠ 0 then
    let e ← atAddr ea (scaledElem s c.scaled (ea % 65536))
    pure { op := { lane, bytes := [], kind := c.kind, hint, act := .scaled reg ty [e] }, leaves := c.leaves }
  else
    let sx := if s.isGath && isSigned ty then tyWidth ty else 0
    pure { op := { lane, bytes := c.bytes, kind := c.kind, hint, act := .load reg sx }, leaves := c.leaves }

/-- A store of a lane (R276). -/
def State.planStore (s : State) (lane ty : Nat) (spaceS natural : Bool) (hint ea : Nat) (data : Word) : Except AccErr Planned := do
  let w := tyWidth ty / 8
  let c ← s.checkLane spaceS ea w { rd := false, wr := true, natural }
  if (c.bytes.zip (leBytes w data.toNat)).any (fun e => s.cursorReserved e.1 e.2) then throw { code := 0x18, addr := ea }
  pure { op := { lane, bytes := c.bytes, kind := c.kind, hint, act := .store (leBytes w data.toNat) }, leaves := c.leaves }

/-- TLBs after the accesses (R341). -/
def State.noteLeaves (s : State) (ls : List (Nat × Nat)) : State :=
  ls.foldl (fun s l => s.noteTlb s.ck s.tm.id.tenant l.1 l.2) s

/-- The lanes that commit and those that fail (R275): past the lowest failing lane no SO access commits. -/
def splitLanes (rs : List (Nat × Except AccErr Planned)) : List Planned × List (Nat × AccErr) × LaneBits :=
  let bad := rs.filterMap (fun r => match r.2 with | .error e => some (r.1, e) | .ok _ => none)
  let low := (bad.map Prod.fst).headD 4096
  let good := rs.filterMap (fun r => match r.2 with | .ok p => some p | .error _ => none)
  let keep := good.filter (fun p => decide (p.op.lane < low) || p.op.kind != 0)
  let so := good.filter (fun p => !(decide (p.op.lane < low) || p.op.kind != 0))
  (keep, bad, maskOf (bad.map Prod.fst ++ so.map (fun p => p.op.lane)))

/-- A read through the window of a poisoned accumulator element, with its tile and lane (R386). -/
def State.tilePoison (s : State) (ops : List LaneOp) : Option (Nat × Nat) :=
  ops.findSome? (fun op =>
    match op.act with
    | .store _ => none
    | _ => op.bytes.findSome? (fun b =>
      match s.region b with
      | .accum k o => if (s.winByte (.accum k o)).2 then some (o / 16384, op.lane) else none
      | _ => none))

/-- Whether an access reaches a scratchpad through its window: it is performed at CLUSTER at least (R236). -/
def State.viaWindow (s : State) (spaceS : Bool) (ops : List LaneOp) : Bool :=
  !spaceS && ops.any (fun o => o.bytes.any (fun b => match s.region b with | .scratch .. => true | _ => false))

/-- What an acquire of a scope leaves to be done once its accesses are performed (R236, R262): the scope plus 1. -/
def State.acqOf (s : State) (spaceS : Bool) (scope : Nat) (ops : List LaneOp) : Nat :=
  (if s.viaWindow spaceS ops then max 3 scope else scope) + 1

/-- What lane accesses do to the spin count of their path (R35): a store or an atomic that is performed puts it back to zero. -/
def State.actedFor (s : State) (ops : List LaneOp) : State := if ops.any (·.act.writes) then s.resetSpin else s

/-- A lane-access instruction with each lane's access planned (R275, R380, R381). A reserved code that any lane meets is the fault of the
whole instruction, before consumed poison (R75, R104); `rel`: a release; `acq`: the acquire of lanes that commit. -/
def State.runLanes (s : State) (i : Instr) (rs : List (Nat × Except AccErr Planned)) (clean : Except FaultReq Unit) (rel : Bool)
    (acq : List LaneOp → Nat) : Except FaultReq State :=
  let (good, bad, rpm) := splitLanes rs
  let ops := good.map (·.op)
  let fr := laneFault bad rpm
  if bad.any (·.2.reserved) then .error fr
  else do
    clean
    match s.tilePoison ops with
    | some (t, l) => .error (poison 2 t l)
    | none =>
      if s.isGath && s.opsGuarded ops then .error stall else
      s.commitLanes i
        (fun s => if good.isEmpty then s else ((s.actedFor ops).perform ops rel (acq ops)).noteLeaves (good.flatMap (·.leaves))) fr

/-- The bodies of accesses that order nothing. -/
def noAcq : List LaneOp → Nat := fun _ => 0

/-- Effective addresses of the served lanes (R274): poisoned address registers are consumed. -/
def State.laneEas (s : State) (g : BitVec 4) (a : Nat) (off : Word) : Except FaultReq (List (Nat × Nat)) := do
  let vs ← s.readV a (s.lanes g)
  pure (vs.map (fun v => (v.1, (v.2 + off).toNat)))

/-- The body of LD and LDA. -/
def loadBody (i : Instr) (h : Head) (o : FmtM) (acq : Bool) : Body := fun s => do
  let eas ← s.laneEas h.guard o.a.toNat (s.rs o.b.toNat)
  s.runLanes i (eas.map (fun e => (e.1, s.planLoad e.1 o.d.toNat o.ty.toNat o.space acq o.hint.toNat e.2))) (.ok ()) false
    (if acq then s.acqOf o.space o.scope.toNat else noAcq)

def execLd (h : Head) (o : FmtM) (s : State) : Out := .next (s.issue (.ld h o) false false (loadBody (.ld h o) h o false))
def execLda (h : Head) (o : FmtM) (s : State) : Out := .next (s.issue (.lda h o) false false (loadBody (.lda h o) h o true))

/-- The body of ST and STL. -/
def storeBody (i : Instr) (h : Head) (o : FmtM) (rel : Bool) : Body := fun s => do
  let eas ← s.laneEas h.guard o.a.toNat (s.rs o.b.toNat)
  s.runLanes i (eas.map (fun e =>
    (e.1, s.planStore e.1 o.ty.toNat o.space rel o.hint.toNat e.2 (s.rv o.d.toNat e.1).val)))
    (s.noPoison (s.lanes h.guard) [.v o.d.toNat]) rel noAcq

def execSt (h : Head) (o : FmtM) (s : State) : Out := .next (s.issue (.st h o) false false (storeBody (.st h o) h o false))
def execStl (h : Head) (o : FmtM) (s : State) : Out := .next (s.issue (.stl h o) false false (storeBody (.stl h o) h o true))

/-- Rows and columns of a scaled page's matrix (R247). -/
def pageShape (leaf : Nat) : Nat × Nat :=
  let gw := pteGw leaf
  (16 * (pageTiles (pteFmt leaf) / 2 ^ gw), 16 * 2 ^ gw)

/-- Element (r, c) of a scaled page (R247). -/
def matElem (s : State) (leaf r c : Nat) : ElemAt :=
  let code := pteFmt leaf
  let t := r / 16 * 2 ^ pteGw leaf + c / 16
  { code, dev := s.leafDev leaf, pay := pteAddr leaf + t * payloadBytes code, ent := pteSframe leaf + 16 * t
    n := 16 * (r % 16) + c % 16 }

/-- The body of LDT and LDTT (R278). -/
def ldtBody (i : Instr) (h : Head) (o : FmtM) (tr : Bool) : Body := fun s => do
  let ls := s.lanes h.guard
  let vs ← s.readV o.a.toNat ls
  let base := (s.rs o.b.toNat).toNat
  let page : Except AccErr Nat := atAddr base (do
    let leaf ← s.translate s.ck s.tm.id.tenant base true false false
    if pteFmt leaf = 0 ∨ base % 65536 ≠ 0 then
      if let some e := s.placeErr s.tm.id.prv false (s.placeOf leaf base) then throw e
    if pteFmt leaf = 0 then throw { code := 0x16 }
    if base % 65536 ≠ 0 then throw { code := 0x15 }
    pure leaf)
  match page with
  | .error e => if ls.isEmpty then pure s else s.commitLanes i id (uniformFault ls e)
  | .ok leaf =>
    let n := tySubs o.ty.toNat
    let (rows, cols) := pageShape leaf
    s.runLanes i (vs.map (fun v =>
      let r := v.2.toNat % 2 ^ 32
      let c := v.2.toNat / 2 ^ 32
      let ok := c % n = 0 ∧ (if tr then c + n ≤ rows ∧ r < cols else r < rows ∧ c + n ≤ cols)
      let els := (List.range n).map (fun k => if tr then matElem s leaf (c + k) r else matElem s leaf r (c + k))
      let reach := if ok then els.flatMap ElemAt.reach else s.placeOf leaf base
      (v.1, match s.placeErr s.tm.id.prv false reach with
        | some e => .error { e with addr := base }
        | none =>
          if ok then
            .ok { op := { lane := v.1, bytes := [], kind := s.kindOf (pteKind leaf) reach, hint := o.hint.toNat
                          act := .scaled o.d.toNat o.ty.toNat els }
                  leaves := [(base, leaf)] }
          else .error { code := 0x15, addr := base }))) (.ok ()) false noAcq

def execLdt (h : Head) (o : FmtM) (s : State) : Out := .next (s.issue (.ldt h o) false false (ldtBody (.ldt h o) h o false))
def execLdtt (h : Head) (o : FmtM) (s : State) : Out := .next (s.issue (.ldtt h o) false false (ldtBody (.ldtt h o) h o true))

/-- The FP32 pattern of an element of a floating-point type: exact, since every such value fits. -/
def toF32 (t x : Nat) : Nat :=
  if t = 0x10 then x else (roundFp 0x10 false false (match decodeFp t x with | .nan _ => .nan false | v => v)).1

/-- The tile that an STT names, with its leaf and number, or the fault of its checks (R275, R279). -/
def State.sttPlace (s : State) (t ea eb : Nat) : Except AccErr (Nat × Nat) :=
  atAddr ea (do
    let leaf ← s.translate s.ck s.tm.id.tenant ea false true false
    let code := pteFmt leaf
    if let some e := s.placeErr s.tm.id.prv true (s.placeOf leaf ea) then throw e
    if code = 0 then throw { code := 0x16 }
    if ea % 65536 % payloadBytes code ≠ 0 ∨ eb % 256 ≠ 0 ∨ s.nl * tySubs t < eb + 256 then throw { code := 0x15 }
    pure (leaf, ea % 65536 / payloadBytes code))

/-- The 256 elements of an STT, each with the cycle in which it is read: that of its section among those that hold them (R28). -/
def State.sttElems (s : State) (t eb : Nat) : List (Nat × Nat) :=
  let sec := fun e => e / tySubs t / 32
  (List.range 256).map (fun i => (s.cyc + (sec (eb + i) - sec eb), eb + i))

/-- The tile write of an STT whose checks have passed (R279). Like any write of the team, and as a release, it stays behind what the team
has held (R246, R256, R258). A tile whose bytes would set reserved bits of a cursor is not written at all, with the window-access fault
(R235; log 130). -/
def State.sttWrite (s : State) (i : Instr) (ls : List Nat) (o : FmtM) (ea eb leaf n : Nat) : Except FaultReq State :=
  let t := o.ty.toNat
  let tile := (scaledAt s leaf (ea % 65536)).reach
  if s.tm.holds || tile.any s.guarded then .error stall
  else
    let raw := (s.sttElems t eb).map (fun e => s.elem e.1 t o.d.toNat e.2)
    let dev := s.leafDev leaf
    let code := pteFmt leaf
    let ent := pteSframe leaf + 16 * n
    let (p, e, f) := formTile (raw.map (toF32 t)) code (s.nextSeq dev ent)
    let nv := if raw.any (fun x => (decodeFp t x).isSig) then stNV else 0
    if (tile.zip (p ++ leBytes 16 e)).any (fun x => s.cursorReserved x.1 x.2) then
      s.commitLanes i id (uniformFault ls { code := 0x18, addr := ea })
    else
    let s := (s.outTouch s.tm.id.tenant s.tm.id.cls tile).resetSpin
    .ok (((s.putTile s.ck dev (pteAddr leaf + n * payloadBytes code) ent p e).stat (f ||| nv)).noteLeaves [(ea, leaf)])

/-- STT (R279): poison among the elements it names is consumed at issue, before the checks of its page can fail (R380). -/
def execStt (h : Head) (o : FmtM) (s : State) : Out :=
  .next (s.issue (.stt h o) true false (fun s =>
    let t := o.ty.toNat
    let ea := (s.rs o.a.toNat).toNat
    let eb := (s.rs o.b.toNat).toNat
    let ls := s.lanesNow h.guard
    let clean := if eb % 256 = 0 ∧ eb + 256 ≤ s.nl * tySubs t then s.noElemPoison t o.d.toNat (s.sttElems t eb) else .ok ()
    match s.sttPlace t ea eb with
    | .error e =>
      let fault := s.commitLanes (.stt h o) id (uniformFault ls e)
      if e.reserved then fault else clean.bind (fun _ => fault)
    | .ok (leaf, n) => clean.bind (fun _ => s.sttWrite (.stt h o) ls o ea eb leaf n)))

/-- An atomic operation of a lane (R235, R280): where the bytes that would be written set a reserved bit of a cursor, it is refused. -/
def State.planAtom (s : State) (lane d op ty : Nat) (pair spaceS : Bool) (ea : Nat) : Except AccErr Planned := do
  let w := tyWidth ty / 8
  let c ← s.checkLane spaceS ea w { wr := true, atom := true, natural := true }
  let x := (s.rv d lane).val
  let y := if pair then (s.rv (d + 1) lane).val else 0
  let new := leBytes w (atomNew op ty (leNat (s.seeBytes s.ck 0 c.bytes).1) x.toNat y.toNat).1
  if (c.bytes.zip new).any (fun e => s.cursorReserved e.1 e.2) then throw { code := 0x18, addr := ea }
  pure { op := { lane, bytes := c.bytes, kind := c.kind, act := .atom d op ty x y }, leaves := c.leaves }

/-- ATOM (R280, R281): .cas of a 64-bit type reads v[d + 1], which must lie in the budget. -/
def execAtom (h : Head) (o : FmtM) (s : State) : Out :=
  .next (s.issue (.atom h o) false false (fun s => do
    let ty := o.ty.toNat
    let w := tyWidth ty / 8
    let op := o.b.toNat
    let pair := op == 7 && w == 8
    failIf (pair && decide (s.tm.id.budget ≤ o.d.toNat + 1)) illegal
    let ls := s.lanes h.guard
    let eas ← s.laneEas h.guard o.a.toNat 0
    s.runLanes (.atom h o) (eas.map (fun e => (e.1, s.planAtom e.1 o.d.toNat op ty pair o.space e.2)))
      (s.noPoison ls ([.v o.d.toNat] ++ (if pair then [.v (o.d.toNat + 1)] else [])))
      (o.order == 2 || o.order == 3) (if o.order = 1 ∨ o.order = 3 then s.acqOf o.space o.scope.toNat else noAcq)))

/-- FENCE (R258, R262, R282): it completes when the earlier accesses have been performed, and its acquire part drops RC and UN lines
then. -/
def execFence (h : Head) (o : FmtM) (s : State) : Out :=
  .next (s.issue (.fence h o) true false (fun s =>
    .ok (if o.order = 1 ∨ o.order = 3 then s.onTm (fun t => match t.fly with
      | f :: fs => { t with fly := { f with acq := o.scope.toNat + 1 } :: fs }
      | [] => t) else s)))

/-- Physical lines of the 16-byte words of a range of addresses that translate (R283). -/
def State.rangeLines (s : State) (a n : Nat) : List Nat :=
  let first := a / 16
  let last := (a + n + 15) / 16
  ((List.range (last - first)).filterMap (fun i =>
    let va := (first + i) * 16 % 2 ^ 64
    match s.translate s.ck s.tm.id.tenant va false false false with
    | .ok leaf => if (s.leafDev leaf).isNone then some (leafPa leaf va / 128) else none
    | .error _ => none)).dedup

/-- CINV (R283). -/
def execCinv (h : Head) (o : FmtM) (s : State) : Out :=
  .next (s.issue (.cinv h o) true false (fun s =>
    let a := (s.rs o.a.toNat).toNat
    let n := (s.rs o.b.toNat).toNat
    let all := o.d.toNat / 2 == 1
    if !all && decide (2 ^ 32 < n) then
      s.commitLanes (.cinv h o) id (uniformFault (s.lanesNow h.guard) { code := 0x15, addr := a })
    else
      let drop := fun (t : Tbl Line) => if all then [] else (s.rangeLines a n).foldl (fun t ln => Tbl.erase ln t) t
      .ok (s.onTabs s.ck (fun t =>
        if o.d.toNat % 2 = 0 then { t with l1 := drop t.l1 } else { t with icache := drop t.icache }))))

/-- The line of an address requested into the L1 (R284); a request that does not translate, reaches a hole or names a scaled page is
dropped. -/
def State.prefetch (s : State) (ea : Nat) : State :=
  match s.translate s.ck s.tm.id.tenant ea true false false with
  | .ok leaf =>
    let b := s.pbyte leaf ea
    if pteFmt leaf = 0 && pteKind leaf != 0 && s.cacheable b then s.l1Touch s.ck (pteKind leaf) 0 (b.pa / 128) else s
  | .error _ => s

/-- PREF (R284): no fault but those of R103, so an address register whose poison bit is set makes no request and is not consumed. -/
def execPref (h : Head) (o : FmtM) (s : State) : Out :=
  .next (s.issue (.pref h o) false false (fun s =>
    let off := s.rs o.b.toNat
    let eas := ((s.lanes h.guard).map (s.rv o.a.toNat)).filterMap (fun c => if c.pz then none else some (c.val + off).toNat)
    .ok (if o.hint = 1 then s else eas.foldl State.prefetch s)))

end Sys2Proof.Machine
end

