-- ==== Sys2Proof/Machine/Cursor.lean ====
section
/-! DEFINITION. Cursor instructions, the walkers and append cursors (08 R168 to R199). -/

namespace Sys2Proof.Machine

/-! Fields of a level descriptor (R169). -/
def dKind (d : Nat) : Nat := natBits d 0 3
def dCw (d : Nat) : Nat := natBits d 3 2
def dHl (d : Nat) : Nat := natBits d 5 5
def dBl (d : Nat) : Nat := natBits d 10 5
def dBts (d : Nat) : Nat := natBits d 15 5
def dPool (d : Nat) : Nat := natBits d 64 32
def dExt (d : Nat) : Nat := natBits d 256 32
def dNfib (d : Nat) : Nat := natBits d 288 32
def dP0 (d : Nat) : Nat := natBits d 320 64
def dP1 (d : Nat) : Nat := natBits d 384 64
def dP2 (d : Nat) : Nat := natBits d 448 64

/-- A well-formed descriptor of kind 0 to 5 (R169, R170). -/
def descOk (d : Nat) : Bool :=
  let k := dKind d
  let x := dExt d
  let n := dNfib d
  let p0 := dP0 d
  let p1 := dP1 d
  natBits d 96 160 == 0 && natBits d 23 41 == 0 && decide (1 ≤ n) && decide (1 ≤ x)
  && decide (p0 < 2 ^ 60 ∧ p1 < 2 ^ 60 ∧ dP2 d < 2 ^ 60) && dP2 d % 8 == 0
  && (k == 1 || dCw d == 0) && (k == 3 || dHl d == 0)
  && (k == 5 || (dBl d == 0 && dBts d == 0 && dPool d == 0))
  && match k with
    | 0 => p0 == 0 && p1 == 0 && decide (n * x ≤ 2 ^ 32)
    | 1 => p0 % 4 == 0 && dCw d != 3 && p1 % 2 ^ dCw d == 0 && decide (x ≤ 2 ^ (8 * 2 ^ dCw d))
    | 2 => p0 % 8 == 0 && p1 == 0 && decide (n * x ≤ 2 ^ 32)
    | 3 => p0 == 0 && p1 % 4 == 0 && decide (1 ≤ dHl d ∧ dHl d ≤ 24) && decide (n * 2 ^ dHl d ≤ 2 ^ 32)
    | 4 => p0 % 4 == 0 && p1 % 8 == 0
    | 5 => p0 % 4 == 0 && p1 % 4 == 0 && decide (dBts d ≤ 20 ∧ dBl d ≤ 16 ∧ dBts d + dBl d ≤ 32)
        && decide (x ≤ 2 ^ (dBts d + dBl d)) && decide (1 ≤ dPool d ∧ dPool d * 2 ^ dBl d ≤ 2 ^ 32)
    | _ => false

/-! Walks: what a lane's walk reads, and how it ends (R174 to R177). -/

/-- What a walk leaves besides its result: malformed metadata met, metadata lines read, leaves used, bytes read, and whether any was read
as a plain load of its lane (kind 5, R177). -/
structure WalkLog where
  mdf : Bool := false
  lines : List Nat := []
  leaves : List (Nat × Nat) := []
  bytes : List PByte := []
  plain : Bool := false
deriving DecidableEq, Repr

/-- A walk of a lane. -/
abbrev WalkM := ExceptT AccErr (StateM WalkLog)

/-- Malformed metadata met (R171). -/
def walkMdf : WalkM Unit := modify (fun w => { w with mdf := true })

/-- A translation or other check within a walk. -/
def walkCheck (r : Except AccErr Checked) : WalkM Checked :=
  match r with
  | .error e => throw e
  | .ok c => do
    modify (fun w => { w with leaves := w.leaves ++ c.leaves })
    pure c

/-- The key of a metadata line: entry number and physical line (R177). -/
def metaKey (e ln : Nat) : Nat := e * 2 ^ 48 + ln

/-- A metadata line that is held and not evicted since. -/
def State.metaLine (s : State) (k e ln : Nat) : Option Line :=
  let l := Tbl.get {} (s.core k).tabs.meta_ (metaKey e ln)
  if l.data = [] then none
  else if l.data = s.homeLine ln then some l
  else if Config.evicted s.seq (metaKey e ln + 2 ^ 60) then none else some l

/-- A metadata element of `n` bytes at an address, for entry `e`: through the metadata cache, or `direct` at its home (R177).
Uncorrectable data is consumed poison (R175). -/
def State.readMeta (s : State) (e a n : Nat) (direct : Bool := false) : WalkM Nat := do
  let a := a % 2 ^ 64
  let c ← walkCheck (atAddr a (s.checkG a n {}))
  modify (fun w => { w with bytes := w.bytes ++ c.bytes, plain := w.plain || direct })
  let pa := (c.bytes.headD { pa := 0 }).pa
  let home := s.seeBytes s.ck 0 c.bytes
  let ln := pa / 128
  let cached := if direct || !(c.bytes.all s.cacheable) then none else s.metaLine s.ck e ln
  match cached with
  | some l => pure (leNat ((List.range n).map (fun i => l.data.getD (pa % 128 + i) 0)))
  | none =>
    if home.2 then throw { code := 0x11, addr := a }
    if !direct && c.bytes.all s.cacheable then modify (fun w => { w with lines := w.lines ++ [metaKey e ln] })
    pure (leNat home.1)

/-- Metadata lines taken in by walks and prefetches (R177, R178); an uncorrectable line is not held. -/
def State.noteMeta (s : State) (keys : List Nat) : State :=
  keys.foldl (fun s key =>
    let ln := key % 2 ^ 48
    let put := fun t => if s.mem.unc (128 * ln) 128 then Tbl.erase key t
      else fillLine metaLines s.seq 3 t key { data := s.homeLine ln, tag := key / 2 ^ 48 }
    s.onTabs s.ck (fun t => { t with meta_ := put t.meta_ })) s

/-- A 32-bit value. -/
def w32 (n : Nat) : Word32 := BitVec.ofNat 32 n

/-- The bound reached (R176): kinds 0 to 4 set POS to UB, kind 5 leaves it. -/
def Cursor.atBound (c : Cursor) : Cursor :=
  { c with done := true, coord := 0xFFFF_FFFF, pos := if c.kind = 5 then c.pos else c.ub }

/-- DONE at malformed metadata (R171): POS and UB stay. -/
def Cursor.broken (c : Cursor) : Cursor := { c with done := true, coord := 0xFFFF_FFFF }

/-- The positions of an entry of kind 0, 2 or 3 (R168, R170). -/
def dPositions (d : Nat) : Nat := dNfib d * (if dKind d = 3 then 2 ^ dHl d else dExt d)

/-- The exclusive bound of the positions of a cursor, where a UB of 0 stands for 2^32 in an entry whose positions reach so far (R170). -/
def Cursor.top (c : Cursor) (d : Nat) : Nat :=
  if c.ub = 0 ∧ [0, 2, 3].contains (dKind d) ∧ dPositions d = 2 ^ 32 then 2 ^ 32 else c.ub.toNat

/-- Kind 1: the coordinate at POS (R168, R171). -/
def State.crdAt (s : State) (e d : Nat) (c : Cursor) (prev : Option Nat) : WalkM Cursor :=
  if c.ub.toNat ≤ c.pos.toNat then pure c.atBound
  else do
    let w := 2 ^ dCw d
    let x ← s.readMeta e (dP1 d + w * c.pos.toNat) w
    if dExt d ≤ x || (match prev with | some p => decide (x ≤ p) | none => false) then
      walkMdf
      pure c.broken
    else pure { c with coord := w32 x }

/-- Kind 2: the first set bit from coordinate `x` on; `base` is the bit of coordinate 0. No bit at or above UB is read (R176). -/
def State.scanBits (s : State) (e d : Nat) (c : Cursor) (base : Nat) : Nat → Nat → WalkM Cursor
  | 0, _ => pure c.atBound
  | n + 1, x => do
    if c.top d ≤ base + x then return c.atBound
    let b ← s.readMeta e (dP0 d + (base + x) / 8) 1
    if b.testBit ((base + x) % 8) then pure { c with coord := w32 x, pos := w32 (base + x) }
    else s.scanBits e d c base n (x + 1)

/-- Kind 3: the first non-empty slot from `x` on (R171: a key not below EXTENT is an empty slot). -/
def State.scanSlots (s : State) (e d : Nat) (c : Cursor) : Nat → Nat → WalkM Cursor
  | 0, _ => pure c.atBound
  | n + 1, x => do
    let key ← s.readMeta e (dP1 d + 4 * x) 4
    if key = 0xFFFF_FFFF then s.scanSlots e d c n (x + 1)
    else if dExt d ≤ key then
      walkMdf
      s.scanSlots e d c n (x + 1)
    else pure { c with coord := w32 key, pos := w32 x }

/-- Kind 4: start and length of run POS, or none when malformed (R171). -/
def State.runAt (s : State) (e d : Nat) (pos : Nat) (prev : Option Nat) : WalkM (Option (Nat × Nat)) := do
  let x ← s.readMeta e (dP1 d + 8 * pos) 8
  let st := x % 2 ^ 32
  let n := x / 2 ^ 32
  if n = 0 ∨ dExt d ≤ st ∨ dExt d < st + n ∨ (match prev with | some p => decide (st ≤ p) | none => false) = true then
    walkMdf
    pure none
  else pure (some (st, n))

/-- Kind 4: the start of run POS. -/
def State.enterRun (s : State) (e d : Nat) (c : Cursor) (prev : Option Nat) : WalkM Cursor :=
  if c.ub.toNat ≤ c.pos.toNat then pure c.atBound
  else do
    match ← s.runAt e d c.pos.toNat prev with
    | none => pure c.broken
    | some (st, _) => pure { c with coord := w32 st }

/-- Kind 5: the position of a coordinate of fibre `p`, or none for an invalid entry (R168, R171, R185). -/
def State.blockPos (s : State) (e d p coord : Nat) : WalkM (Option Nat) := do
  let x ← s.readMeta e (dP0 d + 4 * (p * 2 ^ dBts d + coord / 2 ^ dBl d)) 4 true
  let blk := x % 2 ^ 31
  if !x.testBit 31 then pure none
  else if dPool d ≤ blk then
    walkMdf
    pure none
  else pure (some (blk * 2 ^ dBl d + coord % 2 ^ dBl d))

/-- The block-table fault (R379). -/
def blockFault (e d p coord : Nat) : AccErr :=
  { code := 0x1A, raw := true, val := p + coord / 2 ^ dBl d * 2 ^ 32 + e * 2 ^ 64 }

/-- Kind 5: a cursor placed at a coordinate; an invalid entry is the block-table fault. -/
def State.placeBlock (s : State) (e d : Nat) (c : Cursor) (coord : Nat) : WalkM Cursor := do
  match ← s.blockPos e d c.fib.toNat coord with
  | none => throw (blockFault e d c.fib.toNat coord)
  | some pos => pure { c with coord := w32 coord, pos := w32 pos, done := false }

/-- The descriptor in an entry of the issuing core. -/
def State.desc (s : State) (e : Nat) : Nat := (Tbl.get {} s.cr.tabs.ldt e).img.toNat

/-- Descend (R185). -/
def State.descend (s : State) (e p : Nat) : WalkM Cursor := do
  let d := s.desc e
  let x := dExt d
  let c : Cursor := { ldti := BitVec.ofNat 8 e, kind := BitVec.ofNat 3 (dKind d), valid := true }
  if dNfib d ≤ p then return c.atBound
  match dKind d with
  | 0 => pure { c with pos := w32 (p * x), ub := w32 (p * x + x) }
  | 1 =>
    let lo ← s.readMeta e (dP0 d + 4 * p) 4
    let hi ← s.readMeta e (dP0 d + 4 * (p + 1)) 4
    if hi < lo then
      walkMdf
      pure { c with pos := w32 lo, ub := w32 lo }.atBound
    else s.crdAt e d { c with pos := w32 lo, ub := w32 hi } none
  | 2 => s.scanBits e d { c with pos := w32 (p * x), ub := w32 (p * x + x) } (p * x) x 0
  | 3 =>
    let n := 2 ^ dHl d
    s.scanSlots e d { c with pos := w32 (p * n), ub := w32 (p * n + n) } n (p * n)
  | 4 =>
    let lo ← s.readMeta e (dP0 d + 4 * p) 4
    let hi ← s.readMeta e (dP0 d + 4 * (p + 1)) 4
    if hi < lo then
      walkMdf
      pure { c with pos := w32 lo, ub := w32 lo }.atBound
    else s.enterRun e d { c with pos := w32 lo, ub := w32 hi } none
  | _ =>
    let len ← s.readMeta e (dP1 d + 4 * p) 4 true
    if x < len then walkMdf
    let c := { c with ub := w32 (min len x), fib := w32 p }
    if min len x = 0 then pure c.atBound else s.placeBlock e d c 0

/-- The first slot of a hashed cursor's fibre. -/
def Cursor.slot0 (c : Cursor) (d : Nat) : Nat := c.top d - 2 ^ dHl d

/-- CNEXT's step of a live cursor (R186). -/
def State.stepCursor (s : State) (c : Cursor) : WalkM Cursor := do
  let e := c.ldti.toNat
  let d := s.desc e
  let next := c.coord.toNat + 1
  match c.kind.toNat with
  | 0 =>
    if next < dExt d ∧ c.pos.toNat + 1 < c.top d then pure { c with coord := w32 next, pos := c.pos + 1 } else pure c.atBound
  | 1 => if c.ub.toNat ≤ c.pos.toNat then pure c.atBound else s.crdAt e d { c with pos := c.pos + 1 } (some c.coord.toNat)
  | 2 => s.scanBits e d c ((c.pos - c.coord).toNat) (dExt d - next) next
  | 3 =>
    if c.pos.toNat < c.slot0 d then pure c.atBound
    else s.scanSlots e d c (c.top d - (c.pos.toNat + 1)) (c.pos.toNat + 1)
  | 4 =>
    if c.ub.toNat ≤ c.pos.toNat then pure c.atBound
    else
      match ← s.runAt e d c.pos.toNat none with
      | none => pure c.broken
      | some (st, n) =>
        if next < st + n then pure { c with coord := w32 next }
        else s.enterRun e d { c with pos := c.pos + 1 } (some (st + n - 1))
  | _ =>
    if c.ub.toNat ≤ next then pure c.atBound
    else if next % 2 ^ dBl d = 0 then s.placeBlock e d c next
    else pure { c with coord := w32 next, pos := c.pos + 1 }

/-- Kind 1 sought forward, position by position (R187). -/
def State.seekCrd (s : State) (e d k : Nat) : Nat → Cursor → WalkM Cursor
  | 0, c => pure c
  | n + 1, c =>
    if c.done || decide (k ≤ c.coord.toNat) then pure c
    else if c.ub.toNat ≤ c.pos.toNat then pure c.atBound
    else do
      let c' ← s.crdAt e d { c with pos := c.pos + 1 } (some c.coord.toNat)
      s.seekCrd e d k n c'

/-- Kind 4 sought forward, run by run (R187). -/
def State.seekRun (s : State) (e d k : Nat) : Nat → Cursor → Option Nat → WalkM Cursor
  | 0, c, _ => pure c
  | n + 1, c, prev =>
    if c.ub.toNat ≤ c.pos.toNat then pure c.atBound
    else do
      match ← s.runAt e d c.pos.toNat prev with
      | none => pure c.broken
      | some (st, len) =>
        if k < st then pure { c with coord := w32 st }
        else if k < st + len then pure { c with coord := w32 k }
        else s.seekRun e d k n { c with pos := c.pos + 1 } (some (st + len - 1))

/-- Kind 3: the probe for a key (R187). -/
def State.probe (s : State) (e d k : Nat) (c : Cursor) : Nat → Nat → WalkM Cursor
  | 0, _ => pure c
  | n + 1, i => do
    let hl := dHl d
    let h := k * 0x7A3B_91C5 % 2 ^ 32 / 2 ^ (32 - hl)
    let slot := c.slot0 d + (h + i) % 2 ^ hl
    let key ← s.readMeta e (dP1 d + 4 * slot) 4
    if key = k then pure { c with pos := w32 slot, coord := w32 k, done := false }
    else if key = 0xFFFF_FFFF then pure c
    else if dExt d ≤ key then
      walkMdf
      pure c
    else s.probe e d k c n (i + 1)

/-- A seek of kinds 0 to 4 (R187). -/
def State.seekTo (s : State) (c : Cursor) (k : Nat) : WalkM Cursor := do
  let e := c.ldti.toNat
  let d := s.desc e
  let x := c.coord.toNat
  match c.kind.toNat with
  | 3 =>
    if dExt d ≤ k ∨ (c.ub = 0 ∧ dNfib d * 2 ^ dHl d ≠ 2 ^ 32) then pure c
    else s.probe e d k c (2 ^ dHl d) 0
  | 0 =>
    if c.done || decide (k ≤ x) then pure c
    else if dExt d ≤ k ∨ c.top d ≤ c.pos.toNat + (k - x) then pure c.atBound
    else pure { c with coord := w32 k, pos := c.pos + w32 (k - x) }
  | 1 => if c.done then pure c else s.seekCrd e d k (c.ub.toNat + 1) c
  | 2 => if c.done || decide (k ≤ x) then pure c else s.scanBits e d c ((c.pos - c.coord).toNat) (dExt d - k) k
  | _ => if c.done || decide (k ≤ x) then pure c else s.seekRun e d k (c.ub.toNat + 1) c none

/-! The conditions of a lane (R179), in their order. -/

/-- A cursor fault of a reason. -/
def cursErr (reason l : Nat) : AccErr := { code := 0x19, reason, raw := true, val := l }

/-- The descriptor fault of an entry. -/
def descErr (e : Nat) : AccErr := { code := 0x1C, raw := true, val := e % 256 }
def descFault (e : Nat) : FaultReq := faultOf 0x1C 0 0 (e % 256)

/-- Whether an entry is loaded and held by the issuing group. -/
def State.ldtHeld (s : State) (e : Nat) : Bool :=
  let t := Tbl.get {} s.cr.tabs.ldt e
  decide (e < 256) && t.lv && t.hold == s.tm.id.grp

def Cursor.kindErr (c : Cursor) : Option AccErr :=
  if 6 ≤ c.kind.toNat then some { code := 0x05, raw := true, val := c.kind.toNat + c.ldti.toNat * 256 } else none
def Cursor.deadErr (l : Nat) (c : Cursor) : Option AccErr := if c.valid then none else some (cursErr 0 l)
def State.entryErr (s : State) (l : Nat) (c : Cursor) : Option AccErr :=
  if s.ldtHeld c.ldti.toNat && dKind (s.desc c.ldti.toNat) == c.kind.toNat then none else some (cursErr 4 l)
def Cursor.appErr (l : Nat) (c : Cursor) : Option AccErr := if c.app then some (cursErr 1 l) else none
def Cursor.fibErr (l : Nat) (c : Cursor) : Option AccErr :=
  if c.kind = 5 ∧ c.fib = 0xFFFF_FFFF then some (cursErr 7 l) else none

/-- The first condition met by any of the cursors. -/
def firstErr (cs : List Cursor) (conds : List (Cursor → Option AccErr)) : Option AccErr :=
  conds.findSome? (fun f => cs.findSome? f)

/-- Fails a walk on a condition. -/
def walkErr (e : Option AccErr) : WalkM Unit := match e with | some e => throw e | none => pure ()

/-- The conditions of a cursor that must be live (R179). -/
def State.liveErr (s : State) (l : Nat) (cs : List Cursor) : Option AccErr :=
  firstErr cs [Cursor.kindErr, Cursor.deadErr l, s.entryErr l, Cursor.appErr l]

/-- The conditions of a cursor that is to be stepped or sought; `reel`: not hashed. -/
def State.moveErr (s : State) (l : Nat) (reel : Bool) (cs : List Cursor) : Option AccErr :=
  firstErr cs [Cursor.kindErr, Cursor.deadErr l, s.entryErr l, Cursor.appErr l,
    fun c => if reel && c.kind == 3 then some (cursErr 3 l) else none, Cursor.fibErr l]

/-! Issue of cursor instructions (R173 to R175). -/

/-- A poisoned cursor or second operand of a lane, which the lane would consume (R42, R386). -/
def State.cursPz (s : State) (cs : List Nat) (l : Nat) : Option FaultReq :=
  (cs.find? (fun c => (s.rc c l).pz)).map (fun c => poison 1 c l)
def State.vecPz (s : State) (r l : Nat) : Option FaultReq := if (s.rv r l).pz then some (poison 0 r l) else none
def State.operandPz (s : State) (o : FmtA) (l : Nat) : Option FaultReq := if o.bs then none else s.vecPz o.b.toNat l

/-- The poison that lanes consume: that of the first test that finds any (R42). -/
def noPz (ls : List Nat) (pzs : List (Nat → Option FaultReq)) : Except FaultReq Unit :=
  match pzs.findSome? (fun f => ls.findSome? f) with
  | some fr => .error fr
  | none => .ok ()

/-- The lanes that consume no poison; the others read nothing. -/
def cleanLanes (ls : List Nat) (pzs : List (Nat → Option FaultReq)) : List Nat := ls.filter (fun l => pzs.all (fun f => (f l).isNone))

/-- Whether any access of the issuing team is held (R246, R256). A store or a plain load of a cursor instruction stays behind them all. -/
def State.holding (s : State) : Bool := !s.isGath && s.tm.fly.any (fun f => !f.held.isEmpty)

/-- A reserved level kind in a cursor that an instruction uses in any lane comes before the faults of its own (R103, R104). -/
def State.noReserved (s : State) (ls : List Nat) (pzs : List (Nat → Option FaultReq)) (c : Nat) (use : Cursor → Bool := fun _ => true) :
    Except FaultReq Unit :=
  let bad := (cleanLanes ls pzs).filterMap (fun l => if use (s.rc c l) then ((s.rc c l).kindErr).map (fun e => (l, e)) else none)
  if bad.isEmpty then .ok () else .error (laneFault bad 0)

/-- What a lane's walk writes: cursors, predicates, a vector cell, and the RPM bit of CSEEK. -/
structure LaneRes where
  curs : List (Nat × Cursor) := []
  preds : List (Nat × Bool) := []
  cell : Option (Nat × Word) := none
  rpm : Bool := false
deriving DecidableEq, Repr

/-- The results of lanes written together. -/
def State.putLanes (s : State) (rs : List (Nat × LaneRes)) : State :=
  let cs := (rs.flatMap (fun r => r.2.curs.map Prod.fst)).dedup
  let s := cs.foldl (fun s c => s.wc c (rs.filterMap (fun r => (r.2.curs.find? (fun e => e.1 == c)).map (fun e => (r.1, e.2))))) s
  let ps := (rs.flatMap (fun r => r.2.preds.map Prod.fst)).dedup
  let s := ps.foldl (fun s p =>
    let here := rs.filterMap (fun r => (r.2.preds.find? (fun e => e.1 == p)).map (fun e => (r.1, e.2)))
    s.wp p (maskOf (here.map Prod.fst)) (maskOf ((here.filter (fun e => e.2)).map Prod.fst))) s
  let vs := rs.filterMap (fun r => r.2.cell.map (fun c => (c.1, r.1, ({ val := c.2 } : VCell))))
  let s := match vs with
    | [] => s
    | v :: _ => s.wv v.1 (vs.map (fun x => (x.2.1, x.2.2)))
  let low := maskOf ((rs.filter (fun r => r.2.rpm)).map Prod.fst)
  if low = 0 || s.isGath then s else s.onRegs (fun r => { r with rpm := r.rpm ||| low })

/-- The fault of a walk that met malformed metadata: MDF stays set all the same (R175). -/
def FaultReq.withMdf (fr : FaultReq) (mdf : Bool) : FaultReq := if mdf then { fr with stat := BitVec.ofNat 32 stMDF } else fr

/-- What the reads of walks leave: requests to the host and other devices, tiles promoted (R56, R405, R414), metadata lines and
translations. -/
def State.walked (s : State) (rs : List WalkLog) : State :=
  let bytes := rs.flatMap (·.bytes)
  let s := (s.outTouch s.tm.id.tenant s.tm.id.cls bytes).readTouch s.ck 0 0 bytes
  (s.noteMeta ((rs.flatMap (·.lines)).dedup)).noteLeaves (rs.flatMap (·.leaves))

/-- A cursor instruction over its lanes (R174, R175). It does not issue while a copy in flight covers what a walk reads (R246), or while
accesses of its team are held behind which a plain load stays (R177, R256). A reserved code met by any lane, then poison in a register or
met by any walk, stops all lanes (R75, R104); the others commit or fail alone. -/
def State.walkLanes (s : State) (i : Instr) (g : BitVec 4) (pzs : List (Nat → Option FaultReq)) (f : Nat → WalkM LaneRes) :
    Except FaultReq State := do
  let ls := s.lanes g
  let rs := (cleanLanes ls pzs).map (fun l => (l, StateT.run (ExceptT.run (f l)) {}))
  let bad := rs.filterMap (fun r => match r.2.1 with | .error e => some (r.1, e) | .ok _ => none)
  let logs := rs.map (fun r => r.2.2)
  let mdf := logs.any (·.mdf)
  failIf (logs.any (fun w => w.bytes.any s.guarded || (w.plain && s.holding))) stall
  failIf (bad.any (·.2.reserved)) ((laneFault bad 0).withMdf mdf)
  noPz ls pzs
  match bad.find? (fun b => b.2.code == 0x11) with
  | some (l, e) => throw ((poison 1 0 l true e.addr).withMdf mdf)
  | none =>
    let good := rs.filterMap (fun r => match r.2.1 with | .ok x => some (r.1, x) | .error _ => none)
    s.commitLanes i (fun s => ((if mdf then s.stat stMDF else s).putLanes good).walked logs)
      (laneFault bad (maskOf (bad.map Prod.fst)))

/-- The second operand of CINIT and CSEEK in a lane (R182): vector, or scalar under BS; its low 32 bits. -/
def State.laneOperand (s : State) (o : FmtA) (l : Nat) : Nat :=
  (if o.bs then (s.rs o.b.toNat).toNat else (s.rv o.b.toNat l).val.toNat) % 2 ^ 32

/-- LDTLD (R173, R183): its reads pass the L1 (R240). It waits for a copy in flight over its descriptor and for accesses of its team that
are held (R246, R256). -/
def ldtldBody (h : Head) (o : FmtM) : Body := fun s => do
  let i : Instr := .ldtld h o
  let a := (s.rs o.a.toNat).toNat
  let e := (s.rs o.b.toNat).toNat
  let k := s.ck
  failIf (a % 64 != 0) (faultOf 0x07 0 a)
  failIf (decide (255 < e)) (descFault e)
  let s := if s.isGath then s else s.onTm (fun t => match t.fly with
    | f :: fs => { t with fly := { f with ldt := true } :: fs }
    | [] => t)
  let ls := s.lanesNow h.guard
  match s.checkLane o.space a 64 {} with
  | .error x => s.commitLanes i id (uniformFault ls x)
  | .ok c =>
    failIf (c.bytes.any s.guarded || (!s.isGath && s.tm.holds)) stall
    match (List.range 8).find? (fun j => (s.seeBytes k 0 ((c.bytes.drop (8 * j)).take 8)).2) with
    | some j => throw (poison 3 0 (ls.headD 0) true (a + 8 * j))
    | none =>
      let img := leNat (s.seeBytes k 0 c.bytes).1
      let s := ((s.outTouch s.tm.id.tenant s.tm.id.cls c.bytes).readTouch k 0 0 c.bytes).noteLeaves c.leaves
      let s := if o.order = 1 then s.acquired (s.acqOf o.space o.scope.toNat [{ lane := 0, bytes := c.bytes, act := .load 0 0 }]) else s
      if 6 ≤ dKind img then
        s.commitLanes i id (uniformFault ls { code := 0x05, raw := true, val := dKind img + e * 256 })
      else if !descOk img then s.commitLanes i id (uniformFault ls (descErr e))
      else
        let hold := s.tm.id.grp
        pure (s.onTabs k (fun t =>
          { t with ldt := Tbl.upd {} t.ldt e (fun x => { x with img := BitVec.ofNat 512 img, lv := true, hv := false, hold := hold })
                   meta_ := t.meta_.filter (fun l => l.1 / 2 ^ 48 ≠ e) }))

def execLdtld (h : Head) (o : FmtM) (s : State) : Out := .next (s.issue (.ldtld h o) true false (ldtldBody h o))

/-- CINIT (R173, R185). -/
def execCinit (h : Head) (o : FmtA) (s : State) : Out :=
  .next (s.issue (.cinit h o) false false (fun s => do
    let e := (s.rs o.a.toNat).toNat
    failIf (!s.ldtHeld e) (descFault e)
    s.walkLanes (.cinit h o) h.guard [s.operandPz o] (fun l => do
      let c ← s.descend e (s.laneOperand o l)
      pure { curs := [(o.d.toNat, c)] })))

/-- CINIT.a (R194). -/
def execCinitA (h : Head) (o : FmtA) (s : State) : Out :=
  .next (s.issue (.cinitA h o) false false (fun s => do
    let e := (s.rs o.a.toNat).toNat
    failIf (!s.ldtHeld e) (descFault e)
    let d := s.desc e
    s.walkLanes (.cinitA h o) h.guard [s.operandPz o] (fun l => do
      let p := s.laneOperand o l
      if dKind d ≠ 1 then throw (cursErr 3 l)
      if dNfib d ≤ p ∨ 2 ^ 23 ≤ p then throw (cursErr 6 l)
      if !(Tbl.get {} s.cr.tabs.ldt e).hv then throw (descErr e)
      pure { curs := [(o.d.toNat,
        { ldti := BitVec.ofNat 8 e, kind := 1, valid := true, app := true, pos := w32 (p * 512), ub := w32 (dExt d) })] })))

/-- CDESC (R185). -/
def execCdesc (h : Head) (o : FmtA) (s : State) : Out :=
  .next (s.issue (.cdesc h o) false false (fun s => do
    let e := (s.rs o.b.toNat).toNat
    s.noReserved (s.lanes h.guard) [s.cursPz [o.a.toNat]] o.a.toNat
    failIf (!s.ldtHeld e) (descFault e)
    s.walkLanes (.cdesc h o) h.guard [s.cursPz [o.a.toNat]] (fun l => do
      let p := s.rc o.a.toNat l
      walkErr (s.liveErr l [p])
      let c ← if p.done then
          pure ({ ldti := BitVec.ofNat 8 e, kind := BitVec.ofNat 3 (dKind (s.desc e)), valid := true } : Cursor).atBound
        else s.descend e p.pos.toNat
      pure { curs := [(o.d.toNat, c)] })))

/-- CNEXT (R186). -/
def execCnext (h : Head) (o : FmtA) (s : State) : Out :=
  .next (s.issue (.cnext h o) false false (fun s =>
    s.walkLanes (.cnext h o) h.guard [s.cursPz [o.d.toNat]] (fun l => do
      let c := s.rc o.d.toNat l
      walkErr (s.moveErr l false [c])
      let c' ← if c.done then pure c else s.stepCursor c
      pure { curs := [(o.d.toNat, c')], preds := [(o.c.toNat, !c'.done)] })))

/-- A kind-5 seek (R187): the cursor, or none for an invalid entry. -/
def State.seekBlock (s : State) (c : Cursor) (k : Nat) : WalkM (Option Cursor) := do
  let e := c.ldti.toNat
  let d := s.desc e
  if c.ub.toNat ≤ k then pure (some c)
  else
    match ← s.blockPos e d c.fib.toNat k with
    | some pos => pure (some { c with coord := w32 k, pos := w32 pos, done := false })
    | none => pure none

/-- CSEEK (R187): c[3] is .f. -/
def execCseek (h : Head) (o : FmtA) (s : State) : Out :=
  .next (s.issue (.cseek h o) false false (fun s =>
    let p := o.c.toNat % 8
    s.walkLanes (.cseek h o) h.guard [s.operandPz o, s.cursPz [o.d.toNat]] (fun l => do
      let c := s.rc o.d.toNat l
      let k := s.laneOperand o l
      walkErr (s.moveErr l false [c])
      let r ← if c.kind = 5 then s.seekBlock c k else (do pure (some (← s.seekTo c k)))
      match r with
      | some c' => pure { curs := [(o.d.toNat, c')], preds := [(p, !c'.done && c'.coord.toNat == k)] }
      | none =>
        if o.c.getLsbD 3 then throw (blockFault c.ldti.toNat (s.desc c.ldti.toNat) c.fib.toNat k)
        else pure { preds := [(p, false)], rpm := true })))

/-- A forward seek of the reel (R188): a kind-5 cursor with nothing at or above the target below its bound is DONE. -/
def State.reelSeek (s : State) (c : Cursor) (k : Nat) : WalkM Cursor := do
  if c.kind = 5 then
    if c.ub.toNat ≤ k then pure c.atBound
    else
      match ← s.seekBlock c k with
      | some c' => pure c'
      | none => throw (blockFault c.ldti.toNat (s.desc c.ldti.toNat) c.fib.toNat k)
  else s.seekTo c k

/-- CCOIT.i (R188): the two cursors where they meet or one is DONE. -/
def State.reel (s : State) : Nat → Cursor → Cursor → WalkM (Cursor × Cursor)
  | 0, a, b => pure (a, b)
  | n + 1, a, b =>
    if a.done || b.done || a.coord == b.coord then pure (a, b)
    else if a.coord.toNat < b.coord.toNat then do
      let a' ← s.reelSeek a b.coord.toNat
      s.reel n a' b
    else do
      let b' ← s.reelSeek b a.coord.toNat
      s.reel n a b'

/-- CCOIT (R188): each round of .i raises the lower coordinate, so 2^33 rounds suffice. -/
def execCcoit (h : Head) (o : FmtA) (s : State) : Out :=
  .next (s.issue (.ccoit h o) false false (fun s =>
    let ra := o.a.toNat
    let rb := o.b.toNat
    let p := o.d.toNat
    s.walkLanes (.ccoit h o) h.guard [s.cursPz [ra, rb]] (fun l => do
      let a := s.rc ra l
      let b := s.rc rb l
      walkErr (s.moveErr l true [a, b])
      if o.c = 0 then
        let (a, b) ← if ra = rb then pure (a, b) else s.reel (2 ^ 33) a b
        let m := !a.done && !b.done && a.coord == b.coord
        pure { curs := [(ra, a), (rb, b)], preds := [(p, m), (p + 1, m)] }
      else
        let m := min (if a.done then 2 ^ 32 else a.coord.toNat) (if b.done then 2 ^ 32 else b.coord.toNat)
        pure { preds := [(p, !a.done && a.coord.toNat == m), (p + 1, !b.done && b.coord.toNat == m)] })))

/-- CCRD and CPOS (R189). -/
def execCcrd (h : Head) (o : FmtA) (s : State) : Out :=
  .next (s.issue (.ccrd h o) false false (fun s =>
    s.walkLanes (.ccrd h o) h.guard [s.cursPz [o.a.toNat]] (fun l =>
      pure { cell := some (o.d.toNat, (s.rc o.a.toNat l).coord.zeroExtend 64) })))

def execCpos (h : Head) (o : FmtA) (s : State) : Out :=
  .next (s.issue (.cpos h o) false false (fun s =>
    s.walkLanes (.cpos h o) h.guard [s.cursPz [o.a.toNat]] (fun l =>
      let c := s.rc o.a.toNat l
      pure { cell := some (o.d.toNat, BitVec.ofNat 64 (c.ub.toNat * 2 ^ 32 + c.pos.toNat)) })))

/-- CTEST (R189). -/
def execCtest (h : Head) (o : FmtA) (s : State) : Out :=
  .next (s.issue (.ctest h o) false false (fun s =>
    s.walkLanes (.ctest h o) h.guard [s.cursPz [o.a.toNat]] (fun l =>
      let c := s.rc o.a.toNat l
      let b := match o.c.toNat % 4 with
        | 0 => c.valid && !c.done
        | 1 => c.valid && c.done
        | 2 => c.valid
        | _ => c.app
      pure { preds := [(o.d.toNat, b)] })))

/-- CMOV (R189): an append cursor leaves its source. -/
def execCmov (h : Head) (o : FmtA) (s : State) : Out :=
  .next (s.issue (.cmov h o) false false (fun s =>
    s.walkLanes (.cmov h o) h.guard [s.cursPz [o.a.toNat]] (fun l =>
      let c := s.rc o.a.toNat l
      pure { curs := (o.d.toNat, c) :: (if c.app && o.d != o.a then [(o.a.toNat, {})] else []) })))

/-- The value's address at a cursor (R190). -/
def State.valueAddr (s : State) (c : Cursor) (w : Nat) : Nat := (dP2 (s.desc c.ldti.toNat) + c.pos.toNat * w) % 2 ^ 64

/-- A load that does not extend a sign: CVLD leaves the bits above its type zero, in a gatherer too (R190). -/
def LaneAct.unsigned (a : LaneAct) : LaneAct := match a with | .load r _ => .load r 0 | a => a

/-- Whether a live cursor stands at or above its bound, where no element is read (R176): a position outside its fibre, or a coordinate that
is too large. An entry that has been loaded again can make it so. -/
def Cursor.beyond (c : Cursor) (d : Nat) : Bool :=
  match c.kind.toNat with
  | 5 => decide (c.ub.toNat ≤ c.coord.toNat)
  | 3 => decide (c.top d ≤ c.pos.toNat ∨ c.pos.toNat < c.slot0 d)
  | 0 | 2 => decide (c.top d ≤ c.pos.toNat ∨ dExt d ≤ c.coord.toNat)
  | _ => decide (c.ub.toNat ≤ c.pos.toNat)

/-- What CVLD does in a lane (R190): the fault of its cursor, a cell that it writes without a read (zero for a DONE cursor, a free value
beyond the bound, where the spec states none: log 131), or the load. -/
def State.cvldLane (s : State) (o : FmtM) (l : Nat) : Except AccErr (VCell ⊕ Planned) := do
  let c := s.rc o.a.toNat l
  let w := tyWidth o.ty.toNat / 8
  match s.liveErr l [c] with
  | some e => throw e
  | none =>
    if c.done then pure (.inl {})
    else if c.beyond (s.desc c.ldti.toNat) then pure (.inl { val := Config.freeWord s.seq l })
    else do
      let p ← s.planLoad l o.d.toNat o.ty.toNat false (o.order == 1) o.hint.toNat (s.valueAddr c w)
      pure (.inr { p with op := { p.op with act := p.op.act.unsigned } })

/-- CVLD (R190); a value in a scaled page is decoded as LD decodes it (R248). -/
def execCvld (h : Head) (o : FmtM) (s : State) : Out :=
  .next (s.issue (.cvld h o) false false (fun s =>
    let ls := s.lanes h.guard
    let pzs := [s.cursPz [o.a.toNat]]
    let rs := (cleanLanes ls pzs).map (fun l => (l, s.cvldLane o l))
    let ended := rs.filterMap (fun r => match r.2 with | .ok (.inl v) => some (r.1, v) | _ => none)
    let plans := rs.filterMap (fun r => match r.2 with
      | .ok (.inr p) => some (r.1, .ok p)
      | .ok (.inl _) => none
      | .error e => some (r.1, .error e))
    (s.wv o.d.toNat ended).runLanes (.cvld h o) plans (noPz ls pzs) false
      (if o.order == 1 then s.acqOf false o.scope.toNat else noAcq)))

/-- What CVST does in a lane (R190): nothing at a DONE cursor and beyond the bound (R176). -/
def State.cvstLane (s : State) (o : FmtM) (l : Nat) : Option (Except AccErr Planned) :=
  let c := s.rc o.a.toNat l
  let w := tyWidth o.ty.toNat / 8
  match s.liveErr l [c] with
  | some e => some (.error e)
  | none =>
    if c.done || c.beyond (s.desc c.ldti.toNat) then none
    else some (s.planStore l o.ty.toNat false (o.order == 2) o.hint.toNat (s.valueAddr c w) (s.rv o.b.toNat l).val)

/-- CVST (R190). -/
def execCvst (h : Head) (o : FmtM) (s : State) : Out :=
  .next (s.issue (.cvst h o) false false (fun s =>
    let ls := s.lanes h.guard
    let pzs := [s.cursPz [o.a.toNat], s.vecPz o.b.toNat]
    s.runLanes (.cvst h o) ((cleanLanes ls pzs).filterMap (fun l => (s.cvstLane o l).map (fun r => (l, r))))
      (noPz ls pzs) (o.order == 2) noAcq))

/-- The address of the metadata element of a position, for the kinds whose metadata goes through the metadata cache (R168, R177). -/
def metaAddr (kind d pos : Nat) : Option Nat :=
  match kind with
  | 1 => some ((dP1 d + 2 ^ dCw d * pos) % 2 ^ 64)
  | 2 => some ((dP0 d + pos / 8) % 2 ^ 64)
  | 3 => some ((dP1 d + 4 * pos) % 2 ^ 64)
  | 4 => some ((dP1 d + 8 * pos) % 2 ^ 64)
  | _ => none

/-- The metadata line of an address, requested for an entry (R178): a request that does not translate is dropped. -/
def State.wantMeta (s : State) (e a : Nat) : State :=
  match s.checkG a 1 {} with
  | .ok c =>
    let b := c.bytes.headD { pa := 0 }
    if s.cacheable b then s.noteMeta [metaKey e (b.pa / 128)] else s
  | .error _ => s

/-- The value line of an address, requested into the L1; one that does not translate, or reaches a scaled page, is dropped. -/
def State.wantValue (s : State) (a w : Nat) : State :=
  match s.checkG a w {} with
  | .ok x =>
    let b := x.bytes.headD { pa := 0 }
    if x.kind != 0 && s.cacheable b then s.l1Touch s.ck x.kind 0 (b.pa / 128) else s
  | .error _ => s

/-- The requests of one lane of CPREF (R191). No position at or above the bound of kinds 0 to 4 is read (R176); the UB of kind 5 bounds
coordinates, not positions. -/
def State.prefLane (s : State) (c : Cursor) (ty hint n : Nat) : State :=
  let e := c.ldti.toNat
  let w := tyWidth ty / 8
  let ps := ((List.range n).map (fun j => c.pos.toNat + j + 1)).filter (fun p => c.kind == 5 || decide (p < c.top (s.desc e)))
  ps.foldl (fun s p =>
    let s := match metaAddr c.kind.toNat (s.desc e) p with | some a => s.wantMeta e a | none => s
    if ty = 0 ∨ hint = 1 then s else s.wantValue (s.valueAddr { c with pos := w32 p } w) w) s

/-- CPREF (R178, R191): no fault but that of a poisoned cursor (R386). -/
def execCpref (h : Head) (o : FmtM) (s : State) : Out :=
  .next (s.issue (.cpref h o) false false (fun s => do
    let ls := s.lanes h.guard
    noPz ls [s.cursPz [o.a.toNat]]
    pure (ls.foldl (fun s l =>
      let c := s.rc o.a.toNat l
      if c.done || (s.liveErr l [c]).isSome then s else s.prefLane c o.ty.toNat o.hint.toNat o.b.toNat) s)))

/-! Heaps and append cursors (R192 to R199, 15 R347, R348). -/

/-- The place of a heap entry. -/
def State.heapAddr (s : State) (hp : Nat) : Nat := (s.die (hp / 4)).heaptab + 16 * (hp % 4)

/-- First byte of a chunk (R192). -/
def State.chunkAddr (s : State) (ref : Nat) : Nat :=
  natBits (s.mem.readLe (s.heapAddr (ref / 2 ^ 19 % 16)) 16) 88 40 * 4096 + 4096 * (ref % 2 ^ 19)

/-- Whether 4,096 bytes lie wholly within HBM or the DDR tier. -/
def State.chunkOk (s : State) (a : Nat) : Bool :=
  match regionOf s.ddr a, regionOf s.ddr (a + 4095) with
  | .hbm, .hbm | .ddr, .ddr => true
  | _, _ => false

/-- A claim (R196, R348): the chunk reference, or the reason of the heap fault. -/
def State.claim (s : State) (hp : Nat) : State × Except Nat Nat :=
  let pa := s.heapAddr hp
  if s.mem.unc pa 16 then (s, .error 1)
  else
    let e := s.mem.readLe pa 16
    let next := natBits e 0 19
    if !e.testBit 63 || natBits e 64 16 != 0 || natBits e 51 12 != 0 || natBits e 19 13 != 0
        || decide (natBits e 32 19 ≤ next) || !s.chunkOk (natBits e 88 40 * 4096 + 4096 * next) then (s, .error 0)
    else (s.poke pa (leBytes 4 (natBits (e + 1) 0 32)), .ok (hp * 2 ^ 19 + next))

/-- A store of the issuing core at a physical address, at its home (R195). -/
def State.storePa (s : State) (pa n x : Nat) : State :=
  s.storeBytes s.ck ((List.range n).map (fun i => { pa := pa + i })) (leBytes n x)

/-- IsZero (R195). -/
def valueZero (t x : Nat) : Bool :=
  if t = 0x0E ∨ t = 0x0F ∨ t = 0x10 ∨ t = 0x11 ∨ t = 0x12 then x % 2 ^ (tyWidth t - 1) == 0 else x % 2 ^ tyWidth t == 0

/-- The head's bytes for a write, or the fault (R195, R198). -/
def State.headPlace (s : State) (c : Cursor) : Except AccErr Checked :=
  let a := (dP0 (s.desc c.ldti.toNat) + 4 * (c.pos.toNat / 512)) % 2 ^ 64
  atAddr a (s.checkG a 4 { rd := false, wr := true })

/-- CAPP in one lane whose cursor is `c` (R195): the state, and the cursor after it, none when the entry is dropped. `grant`: a
chunk reference that takes the place of the claim (R197). -/
def State.appendOne (s : State) (l ty : Nat) (keepz : Bool) (c : Cursor) (x : Nat) (grant : Option Nat) :
    State × Except AccErr (Option Cursor) :=
  let k := x % 2 ^ 32
  let n := c.pos.toNat % 512
  let e := c.ldti.toNat
  let ent := Tbl.get {} s.cr.tabs.ldt e
  match firstErr [c] [Cursor.kindErr, Cursor.deadErr l, s.entryErr l,
      fun c => if c.app then none else some (cursErr 2 l),
      fun c => if c.ub.toNat ≤ k ∨ (n ≠ 0 ∧ k ≤ c.coord.toNat) then some (cursErr 5 l) else none] with
  | some err => (s, .error err)
  | none =>
    if !keepz && valueZero ty (x / 2 ^ 32) then (s, .ok none)
    else if n ≠ 0 ∧ n ≠ 511 then
      let s := s.storePa (s.chunkAddr (c.pos.toNat / 512) + 8 * (n + 1)) 8 x
      (s, .ok (some { c with pos := c.pos + 1, coord := w32 k }))
    else if !ent.hv then (s, .error (descErr e))
    else
      match if n = 0 then (s.headPlace c).map some else .ok none with
      | .error err => (s, .error err)
      | .ok head =>
        let (s, r) := match grant with
          | some g => (s, Except.ok g)
          | none => s.claim ent.heap
        match r with
        | .error reason =>
          let s := if reason = 0 then s.stat stHEX else s
          (s, .error { code := 0x1B, reason, raw := true, val := 0xFFFF_FFFF + ent.heap * 2 ^ 32 + l * 2 ^ 36 })
        | .ok ref =>
          let s := s.storePa (s.chunkAddr ref) 8 0xFFFF_FFFF
          let s := match head with
            | some hd => (s.storeBytes s.ck hd.bytes (leBytes 4 ref)).noteLeaves hd.leaves
            | none => s.storePa (s.chunkAddr (c.pos.toNat / 512)) 8 (511 * 2 ^ 32 + ref)
          let s := s.storePa (s.chunkAddr ref + 8) 8 x
          (s, .ok (some { c with pos := w32 (ref * 512 + 1), coord := w32 k }))

/-- Whether the head that an append cursor's lane would write waits for a copy in flight over it (R246). -/
def State.headGuarded (s : State) (c : Cursor) : Bool :=
  c.valid && c.app && c.pos.toNat % 512 == 0 &&
    match s.headPlace c with | .ok hd => hd.bytes.any s.guarded | .error _ => false

/-- Append cursors of lanes in ascending order: the state, the cursors written, and the lanes that failed. -/
def runAppends (f : State → Nat → State × Except AccErr (Option Cursor)) (ls : List Nat) (s : State) :
    State × List (Nat × Cursor) × List (Nat × AccErr) :=
  ls.foldl (fun acc l =>
    let (s', r) := f acc.1 l
    match r with
    | .error e => (s', acc.2.1, acc.2.2 ++ [(l, e)])
    | .ok none => (s', acc.2.1, acc.2.2)
    | .ok (some c) => (s', acc.2.1 ++ [(l, c)], acc.2.2)) (s, [], [])

/-- What CAPP and CCLOSE wait for: copies in flight over a head they write (R246), and accesses of their team that are held, behind which
their stores stay (R195, R256, R258). -/
def State.appendWaits (s : State) (ls : List Nat) (d : Nat) : Bool :=
  s.holding || ls.any (fun l => s.headGuarded (s.rc d l))

/-- CAPP (R195 to R197): an entry that is appended puts the spin count back to zero (R35). -/
def execCapp (h : Head) (o : FmtM) (s : State) : Out :=
  .next (s.issue (.capp h o) false false (fun s => do
    let ls := s.lanes h.guard
    let d := o.d.toNat
    let pzs := [s.cursPz [d], s.vecPz o.a.toNat]
    s.noReserved ls pzs d
    noPz ls pzs
    failIf (s.appendWaits ls d) stall
    let (s', good, bad) := runAppends (fun s' l =>
      s'.appendOne l o.ty.toNat (o.b.getLsbD 0) (s.rc d l) (s.rv o.a.toNat l).val.toNat none) ls s
    (if good.isEmpty then s' else s'.resetSpin).commitLanes (.capp h o) (fun s => s.wc d good)
      (laneFault bad (maskOf (bad.map Prod.fst)))))

/-- A GRANT that may be used (R197): a chunk reference of the lane's heap, wholly in HBM or the DDR tier. -/
def State.grantOk (s : State) (g heap : Nat) : Bool := decide (g < 2 ^ 23) && g / 2 ^ 19 == heap && s.chunkOk (s.chunkAddr g)

/-- A cursor register of the issuing agent put as it stands. -/
def State.putCursor (s : State) (c l : Nat) (x : Cursor) : State :=
  match s.cur with
  | .team .. => s.onRegs (fun r => { r with c := Tbl.set {} r.c (8 * l + c) x })
  | .gath .. => s.onGt (fun g => { g with c := Tbl.set {} g.c c x })

/-- The one lane of a granted CAPP completed before its replay (R197); none when the GRANT is not used. -/
def State.grantAppend (s : State) (word : Word) (l g : Nat) : Option State :=
  match decode word with
  | .ok (.capp _ o) =>
    let c := s.rc o.d.toNat l
    if !s.grantOk g (Tbl.get {} s.cr.tabs.ldt c.ldti.toNat).heap then none
    else
      let (s', r) := s.appendOne l o.ty.toNat (o.b.getLsbD 0) c (s.rv o.a.toNat l).val.toNat (some g)
      match r with
      | .ok (some c') => some (s'.putCursor o.d.toNat l c')
      | .ok none => some s'
      | .error _ => none
  | _ => none

/-- A GRANT taken up by the issuing agent (R197): a team's lane leaves RPM, a gatherer goes on behind the instruction. -/
def State.useGrant (s : State) : State :=
  match s.cur with
  | .team .. =>
    match s.tm.flt.grant with
    | none => s
    | some g =>
      let word := s.tm.flt.word
      let l := lowLane s.nl s.tm.regs.rpm
      let s := s.onTm (Team.onFlt · (fun f => { f with grant := none }))
      match s.grantAppend word l g with
      | some s => s.onRegs (fun r => { r with rpm := 0 })
      | none => s
  | .gath .. =>
    match s.gt.grant with
    | none => s
    | some g =>
      let word := s.gt.word
      let s := s.onGt (fun x => { x with grant := none })
      match s.grantAppend word 0 g with
      | some s => s.onGt Gatherer.passed
      | none => s

/-- CCLOSE in one lane (R198). A cursor without APP takes only the last step, whatever its entry is; only a KIND of 6 or 7 still takes
the reserved-level-kind fault of R179 (the model's choice: log 112). -/
def State.closeOne (s : State) (l : Nat) (c : Cursor) : State × Except AccErr (Option Cursor) :=
  let fin := { c with valid := false, app := false, done := true }
  if !c.valid then (s, .ok none)
  else if !c.app then
    match c.kindErr with
    | some e => (s, .error e)
    | none => (s, .ok (some fin))
  else
    match firstErr [c] [Cursor.kindErr, s.entryErr l] with
    | some e => (s, .error e)
    | none =>
      let n := c.pos.toNat % 512
      if n = 0 then
        match s.headPlace c with
        | .error e => (s, .error e)
        | .ok hd => ((s.storeBytes s.ck hd.bytes (leBytes 4 0xFFFF_FFFF)).noteLeaves hd.leaves, .ok (some fin))
      else (s.storePa (s.chunkAddr (c.pos.toNat / 512)) 8 (n * 2 ^ 32 + 0xFFFF_FFFF), .ok (some fin))

def execCclose (h : Head) (o : FmtA) (s : State) : Out :=
  .next (s.issue (.cclose h o) false false (fun s => do
    let ls := s.lanes h.guard
    let d := o.d.toNat
    let pzs := [s.cursPz [d]]
    s.noReserved ls pzs d (·.valid)
    noPz ls pzs
    failIf (s.appendWaits ls d) stall
    let (s', good, bad) := runAppends (fun s' l => s'.closeOne l (s.rc d l)) ls s
    s'.commitLanes (.cclose h o) (fun s => s.wc d good) (laneFault bad (maskOf (bad.map Prod.fst)))))

/-- CHEAP (R184, R348). -/
def execCheap (h : Head) (o : FmtA) (s : State) : Out :=
  .next (s.issue (.cheap h o) true false (fun s => do
    let e := (s.rs o.a.toNat).toNat
    let hp := 4 * dieOfCore s.ck + o.c.toNat % 4
    failIf (!s.ldtHeld e) (descFault e)
    let pa := s.heapAddr hp
    let x := s.mem.readLe pa 16
    failIf (s.mem.unc pa 16 || !x.testBit 63 || natBits x 80 8 != s.tm.id.tenant) (descFault e)
    let s := if s.isGath then s else s.onTm (fun t => match t.fly with
      | f :: fs => { t with fly := { f with ldt := true } :: fs }
      | [] => t)
    pure (s.onTabs s.ck (fun t => { t with ldt := Tbl.upd {} t.ldt e (fun x => { x with hv := true, heap := hp }) }))))

end Sys2Proof.Machine
end

