-- ==== Sys2Proof/Machine/Sync.lean ====
section
/-! DEFINITION. Barriers, dependency counters and clock samples (16 R352 to R368, R373; 18 R417). -/

namespace Sys2Proof.Machine

/-- An event of a unit that must exist. -/
def onUnit (name : String) (i limit : Nat) (s : State) : Out :=
  if i < limit then .next s else .fault (.noSuchUnit name i)

/-- Whether a core has stopped under a freeze (14 R322). -/
def State.stopped (s : State) (k : Nat) : Bool := (s.die (dieOfCore k)).frozen || (s.core k).ctl.stopped

/-- An event of an engine of a core that starts something: nothing under a freeze (14 R322). -/
def onRunning (core : Nat) (s s' : State) : Out := onUnit "core" core 192 (if s.stopped core then s else s')

/-- A format-W instruction on a named barrier: at or above the group's NBAR it is illegal (R357). -/
def namedIssue (i : Instr) (b : Nat) (body : Body) (s : State) : Out :=
  if s.grpOf.nbar ≤ b then .next (s.issueIllegal (wordOf i) illegal) else .next (s.issue i true false body)

/-- The barrier fault (R360, R379). -/
def barFault (reason b : Nat) : FaultReq := faultOf 0x25 reason 0 b

/-- Arrive (R353): the status and the barrier, or the reason of the fault. `key` names the team. -/
def Bar.arrive (b : Bar) (key cnt : Nat) (drop : Bool) : Except Nat (Nat × Bar) :=
  if b.stat ≠ 0 then .ok (b.stat, b)
  else if b.arrm.contains key then .error 1
  else if (b.count = 0 ∧ cnt = 0) ∨ (b.count ≠ 0 ∧ cnt ≠ 0 ∧ cnt ≠ b.count) then .error 0
  else
    let n := if b.count = 0 then cnt else b.count
    if b.arr = n then .error 2
    else .ok (0, { b with count := n, arrm := insertAsc key b.arrm, arr := b.arr + 1, drop := if drop then b.drop + 1 else b.drop })

/-- TryComplete (R353): the barrier, and whether the phase completed. -/
def Bar.tryComplete (b : Bar) : Bar × Bool :=
  if b.stat = 0 ∧ b.count ≠ 0 ∧ b.arr = b.count ∧ b.exp = 0 then
    ({ b with phase := !b.phase, arr := 0, arrm := [], count := b.count - b.drop, drop := 0, last := b.count }, true)
  else (b, false)

/-- The payload of a BAR event of a named barrier (R319). -/
def Bar.eventBits (b : Bar) (num op st : Nat) : Nat :=
  num * 2 ^ 59 + op * 2 ^ 55 + st * 2 ^ 52 + b.phase.toNat * 2 ^ 51 + b.count % 32 * 2 ^ 46 + b.arr % 32 * 2 ^ 41
    + b.exp % 2 ^ 24 * 2 ^ 17

/-- The BAR event of a named barrier, of the team in slot `i`. -/
def State.barEvent (s : State) (k i num op st : Nat) (b : Bar) : State :=
  s.emit k 0x07 i (s.team k i).id.tenant (b.eventBits num op st) false

/-- The BAR event of a cluster or grid barrier; `arr`: the arrivals counted after this one. The end of a phase (operations 7 and 9 with
status 0) names the participant count of the phase that ended. -/
def State.wideEvent (s : State) (k i num op st arr : Nat) (b : Bar) : State :=
  let n := if (op = 7 ∨ op = 9) ∧ st = 0 then b.last else b.count
  s.emit k 0x07 i (s.team k i).id.tenant
    (num * 2 ^ 59 + op * 2 ^ 55 + st * 2 ^ 52 + b.phase.toNat * 2 ^ 51 + n % 2 ^ 16 * 2 ^ 35 + arr % 2 ^ 16 * 2 ^ 19) false

/-- The completion test of barrier word `n` of core `k`, its group's barrier `b` (R353); the event names the team that changed the
barrier last (log 113). -/
def State.tryBar (s : State) (k n b tenant : Nat) : State :=
  let (x, fin) := (s.nbar k n).tryComplete
  if fin then (s.onNbar k n (fun _ => x)).emit k 0x07 x.who tenant (x.eventBits b 5 0) false else s

/-- The completion tests of the named barriers of a core, once per core cycle, after all changes of the cycle (R353). -/
def State.tryBars (s : State) (k : Nat) : State :=
  (s.core k).groups.foldl (fun s g =>
    (List.range g.2.nbar).foldl (fun s b => s.tryBar k (g.2.bbase + b) b g.2.tenant) s) s

/-- The completion tests of the cluster barriers of a die, once per core cycle (R353, R362). -/
def State.tryCbars (s : State) (d : Nat) : State :=
  s.onDie d (fun x => { x with cbars := x.cbars.map (fun e => (e.1, e.2.tryComplete.1)) })

/-- Named barrier `b` of the issuing group. -/
def State.myBar (s : State) (b : Nat) : Bar := s.nbar s.ck (s.grpOf.bbase + b)

/-- An arrival of the issuing team at named barrier `b` (R353): the status, the phase it arrived in, and the state. One that the barrier
accepts puts the spin count back to zero (R35). -/
def State.arriveNamed (s : State) (b cnt op : Nat) (drop : Bool) : Except FaultReq (Nat × Bool × State) :=
  let old := s.myBar b
  match old.arrive s.slot cnt drop with
  | .error r => .error (barFault r b)
  | .ok (st, x) =>
    let s := if st = 0 then s.resetSpin else s
    .ok (st, old.phase, (s.onNbar s.ck (s.grpOf.bbase + b) (fun _ => { x with who := s.slot })).barEvent s.ck s.slot b op st x)

/-- How a wait on a barrier stands (R355, R356): STAT, or 0 once the phase differs from the parity. -/
def Bar.ends (b : Bar) (par : Bool) : Option Nat := if b.stat ≠ 0 then some b.stat else if b.phase != par then some 0 else none

/-- The body of BARV and BDROP (R358). -/
def barvBody (o : FmtW) (op : Nat) (drop : Bool) : Body := fun s => do
  let (st, ph, s) ← s.arriveNamed o.obj.toNat o.count.toNat op drop
  pure (s.wsn o.d.toNat (st + if ph then 256 else 0))

def execBarv (h : Head) (o : FmtW) (s : State) : Out := namedIssue (.barv h o) o.obj.toNat (barvBody o 0 false) s
def execBdrop (h : Head) (o : FmtW) (s : State) : Out := namedIssue (.bdrop h o) o.obj.toNat (barvBody o 2 true) s

/-- The issuing team waits on named barrier `b` for the end of phase `par`, unless it has ended (R355, R358). -/
def State.waitNamed (s : State) (b : Nat) (par : Bool) (d t : Nat) (arrd : Bool) : State :=
  match (s.myBar b).ends par with
  | some st => ((s.barEvent s.ck s.slot b 4 st (s.myBar b)).wsn d st).onTm (fun t => { t with arrd := false })
  | none => s.beginWait (.named b par) d t arrd

/-- BWAIT. -/
def execBwait (h : Head) (o : FmtW) (s : State) : Out :=
  namedIssue (.bwait h o) o.obj.toNat (fun s => .ok (s.waitNamed o.obj.toNat (o.count.getLsbD 0) o.d.toNat o.t.toNat false)) s

/-- BSYNC: a restored or interrupted wait does not arrive again (R359). -/
def execBsync (h : Head) (o : FmtW) (s : State) : Out :=
  namedIssue (.bsync h o) o.obj.toNat (fun s => do
    let b := o.obj.toNat
    if s.tm.arrd then pure (s.waitNamed b s.tm.arrPh o.d.toNat o.t.toNat true)
    else
      let (st, ph, s) ← s.arriveNamed b o.count.toNat 1 false
      if st ≠ 0 then pure (s.wsn o.d.toNat st)
      else pure (s.waitNamed b ph o.d.toNat o.t.toNat true)) s

/-- BEXP (R354, R358). -/
def execBexp (h : Head) (o : FmtW) (s : State) : Out :=
  namedIssue (.bexp h o) o.obj.toNat (fun s =>
    let b := o.obj.toNat
    let n := s.grpOf.bbase + b
    if (s.myBar b).stat ≠ 0 then .ok s
    else
      let s := s.onNbar s.ck n (fun x => { x with exp := (x.exp + o.count.toNat * 2 ^ o.t.toNat) % 2 ^ 24, who := s.slot })
      .ok (s.barEvent s.ck s.slot b 3 0 (s.myBar b))) s

/-- The key of a team in a cluster or grid barrier, the same wherever its group is placed (R362): the index of its group in the task, and
its own in the group. -/
def TeamId.wideKey (t : TeamId) : Nat := 16 * t.gidx + t.tidx

/-- CBAR's wait (R362). -/
def State.waitCluster (s : State) (b : Nat) (par : Bool) (d t : Nat) : State :=
  match (s.cbar s.ck b).ends par with
  | some st =>
    let s := if st = 0 then s.l1Acquire s.ck 3 false else s
    ((s.wideEvent s.ck s.slot b 7 st 0 (s.cbar s.ck b)).wsn d st).onTm (fun t => { t with arrd := false })
  | none => s.beginWait (.cluster b par) d t true

/-- CBAR (R361, R362). -/
def execCbar (h : Head) (o : FmtW) (s : State) : Out :=
  .next (s.issue (.cbar h o) true false (fun s => do
    let b := o.obj.toNat
    let k := s.ck
    let hdr := s.grpOf.hdr
    failIf (recBits hdr 57 3 == 0 || !(recBits hdr 325 8).testBit b) (barFault 3 b)
    if s.tm.arrd then pure (s.waitCluster b s.tm.arrPh o.d.toNat o.t.toNat)
    else
      let old := s.cbar k b
      match old.arrive s.tm.id.wideKey 0 false with
      | .error r => throw (barFault r b)
      | .ok (st, x) =>
        let s := if st = 0 then s.resetSpin else s
        let s := (s.onCbar k b (fun _ => x)).wideEvent k s.slot b 6 st x.arr x
        if st ≠ 0 then pure (s.wsn o.d.toNat st)
        else pure (s.waitCluster b old.phase o.d.toNat o.t.toNat)))

/-- The device that counts the phases of a grid barrier: the lowest index in its map (R417). -/
def State.gridCounter (s : State) (b : Nat) : Nat := (Tbl.get {} s.io.grids b).members.headD s.io.domidx
def State.countsGrid (s : State) (b : Nat) : Bool := s.gridCounter b == s.io.domidx

/-- A phase of a grid barrier completes: the next arrival sets the count anew (R362). -/
def Bar.gridPhase (b : Bar) : Bar := { b with phase := !b.phase, arr := 0, arrm := [], count := 0, last := b.count }
def Bar.gridTry (b : Bar) : Bar := if b.tryComplete.2 then b.gridPhase else b

/-- The completion test of a grid barrier that this device counts: the end of a phase is announced to every member (R417). -/
def State.tryGrid (s : State) (b : Nat) : State :=
  let done := (s.gridBar b).tryComplete.2
  let s := s.onGrid b (fun g => { g with bar := g.bar.gridTry })
  if done then s.tellGrid b [1, 0] else s

/-- A grid barrier that the task which held it leaves (R361, R363): the arrivals of other devices in the current phase stay. -/
def Bar.released (b : Bar) : Bar :=
  let n := b.arr - b.arrm.length
  { b with stat := 0, arr := n, arrm := [], count := if n = 0 then 0 else b.count }

/-- A grid barrier as a task comes to hold it: abandoned where its map names a device that cannot be reached (R415). -/
def Bar.taken (b : Bar) (lost : Bool) : Bar := if lost then b.abandon 2 else b

/-- GBAR's wait. -/
def State.waitGrid (s : State) (b : Nat) (par : Bool) (d t : Nat) : State :=
  match (s.gridBar b).ends par with
  | some st =>
    let s := if st = 0 then s.l1Acquire s.ck 5 false else s
    ((s.wideEvent s.ck s.slot b 9 st 0 (s.gridBar b)).wsn d st).onTm (fun t => { t with arrd := false })
  | none => s.beginWait (.grid b par) d t true

/-- An arrival at a grid barrier that another device counts: it names the team once per phase; the count is checked against
what this device has seen of the phase. -/
def Bar.arriveAway (b : Bar) (key cnt : Nat) : Except Nat (Nat × Bar) :=
  if b.stat ≠ 0 then .ok (b.stat, b)
  else if b.arrm.contains key then .error 1
  else if b.count ≠ 0 ∧ cnt ≠ 0 ∧ cnt ≠ b.count then .error 0
  else .ok (0, { b with count := if b.count = 0 then cnt else b.count, arrm := insertAsc key b.arrm })

/-- GBAR (R361 to R363): an arrival that another device counts is sent to it (R417). -/
def execGbar (h : Head) (o : FmtW) (s : State) : Out :=
  .next (s.issue (.gbar h o) true false (fun s => do
    let b := o.obj.toNat
    let k := s.ck
    failIf (!(recBits s.grpOf.hdr 124 4).testBit b) (barFault 3 b)
    if s.tm.arrd then pure (s.waitGrid b s.tm.arrPh o.d.toNat o.t.toNat)
    else
      let old := s.gridBar b
      let here := s.countsGrid b
      let key := s.tm.id.wideKey
      match if here then old.arrive key o.count.toNat false else old.arriveAway key o.count.toNat with
      | .error r => throw (barFault r b)
      | .ok (st, x) =>
        let s := if st = 0 then s.resetSpin else s
        let s := (s.onGrid b (fun g => { g with bar := x })).wideEvent k s.slot b 8 st (if here then x.arr else 0) x
        if st ≠ 0 then pure (s.wsn o.d.toNat st)
        else
          let s := if here then s.tryGrid b else s.sendGrid b (s.gridCounter b) [0, o.count.toNat]
          pure (s.waitGrid b old.phase o.d.toNat o.t.toNat)))

/-- Arrivals of another member device reach the device that counts (R363, R417); `n`: the participant count they give. -/
def execGridArrivalMessage (k dev n : Nat) (s : State) : Out :=
  let g := Tbl.get {} s.io.grids k
  onUnit "gb" k 4 (if s.countsGrid k && g.members.contains dev && g.bar.stat == 0 then
      (s.onGrid k (fun g => { g with bar :=
        { g.bar with count := if g.bar.count = 0 then n else g.bar.count, arr := g.bar.arr + 1 } })).tryGrid k
    else s)

/-- The counting device announces the end of a phase, or that the barrier is abandoned or cancelled (R362, R363, R417). -/
def execGridCompletionMessage (k status : Nat) (s : State) : Out :=
  onUnit "gb" k 4 (s.onGrid k (fun g => { g with bar := if status = 0 then g.bar.gridPhase else g.bar.abandon status }))

/-- The dependency counter of an index (R364). -/
def State.dc (s : State) (i : Nat) : DepCnt := Tbl.get {} (s.die (i / 1024)).dcs (i % 1024)
def State.onDc (s : State) (i : Nat) (f : DepCnt → DepCnt) : State :=
  s.onDie (i / 1024) (fun d => { d with dcs := Tbl.upd {} d.dcs (i % 1024) f })

/-- The counter that DCSET and DCADD name (R365, R366). -/
def State.dcIndex (s : State) (r : Nat) : Except FaultReq Nat := do
  let x := (s.rs r).toNat
  failIf (decide (4096 ≤ x)) illegal
  failIf ((s.dc x).owner != s.tm.id.tenant) (privilege)
  pure x

/-- DCSET (R366). -/
def execDcset (h : Head) (o : FmtI) (s : State) : Out :=
  .next (s.issue (.dcset h o) true false (fun s => do
    let i ← s.dcIndex o.a.toNat
    let v := s.rs o.d.toNat
    pure (s.resetSpin.onDc i (fun c => { c with val := v.truncate 32, err := false }))))

/-- DCADD (R366). -/
def execDcadd (h : Head) (o : FmtI) (s : State) : Out :=
  .next (s.issue (.dcadd h o) true false (fun s => do
    let i ← s.dcIndex o.a.toNat
    let c := s.dc i
    pure ((s.resetSpin.onDc i (fun c => { c with val := c.val + o.imm.signExtend 32 })).wsn o.d.toNat
      (c.val.toNat + c.err.toNat * 2 ^ 32))))

/-- How a wait on a counter stands (R368). -/
def DepCnt.ends (c : DepCnt) : Option Nat := if c.val = 0 then some (if c.err then 4 else 0) else none

/-- DCWAIT (R365, R368). -/
def execDcwait (h : Head) (o : FmtW) (s : State) : Out :=
  .next (s.issue (.dcwait h o) true false (fun s => do
    let i := (o.count.toNat % 4096 + (s.rs o.obj.toNat).toNat % 4096) % 4096
    failIf ((s.dc i).owner != s.tm.id.tenant) (privilege)
    match (s.dc i).ends with
    | some st => pure ((s.l1Acquire s.ck 5 false).wsn o.d.toNat st)
    | none => pure (s.beginWait (.counter i) o.d.toNat o.t.toNat false)))

/-- TIME and CYC (R373). -/
def execTime (h : Head) (o : FmtA) (s : State) : Out :=
  .next (s.issue (.time h o) true false (fun s => .ok (s.wsn o.d.toNat s.time)))

def execCyc (h : Head) (o : FmtA) (s : State) : Out :=
  .next (s.issue (.cyc h o) true false (fun s =>
    let clk := (s.die (dieOfCore s.ck)).clk
    .ok (s.ws o.d.toNat (if o.c = 0 then clk.cyc else clk.cycn))))

/-- How a wait of the team in slot `i` stands apart from its timeout (R130, R355, R356, R362, R368). -/
def State.waitEnds (s : State) (k i : Nat) (w : Wait) : Option Nat :=
  match w.kind with
  | .flag f n => if ((s.team k i).flag f).count ≤ n then some 0 else none
  | .named b par => (s.nbar k (((s.core k).group (s.team k i).id.grp).bbase + b)).ends par
  | .cluster b par => (s.cbar k b).ends par
  | .grid b par => (s.gridBar b).ends par
  | .counter c => (s.dc c).ends
  | _ => none

/-- A wait that ends with a status: its event and its acquire (R265, R319), then the team goes on. -/
def State.finishWait (s : State) (k i : Nat) (w : Wait) (st : Nat) : State :=
  let s := match w.kind with
    | .named b _ => s.barEvent k i b 4 st (s.nbar k (((s.core k).group (s.team k i).id.grp).bbase + b))
    | .cluster b _ => (if st = 0 then s.l1Acquire k 3 false else s).wideEvent k i b 7 st 0 (s.cbar k b)
    | .grid b _ => (if st = 0 then s.l1Acquire k 5 false else s).wideEvent k i b 9 st 0 (s.gridBar b)
    | .counter _ => if st = 0 ∨ st = 4 then s.l1Acquire k 5 false else s
    | _ => s
  s.endWait k i st

end Sys2Proof.Machine
end

