-- ==== Sys2Proof/Machine/Queue.lean ====
section
/-! DEFINITION. Task queues as teams and the host reach them, and access queues (13 R297 to R312). -/

namespace Sys2Proof.Machine

/-! Task queues (R297). -/

def State.tq (s : State) (q : Nat) : TaskQueue := Tbl.get {} (s.die (q / 64)).queues q
def State.onTq (s : State) (q : Nat) (f : TaskQueue → TaskQueue) : State :=
  s.onDie (q / 64) (fun d => { d with queues := Tbl.upd {} d.queues q f })

/-- Records of the ring, and records held. -/
def TaskQueue.size (q : TaskQueue) : Nat := 2 ^ (6 + min q.szlog 10)
def TaskQueue.count (q : TaskQueue) : Nat := (q.tail - q.head).toNat
def TaskQueue.full (q : TaskQueue) : Bool := q.count == q.size

/-- The place of record `n`. -/
def TaskQueue.slot (q : TaskQueue) (n : Word32) : Nat := q.base * 4096 + 64 * (n.toNat % q.size)

/-- A record written at TAIL (R300, R302), with the queue's class and tenant. -/
def State.enqueue (s : State) (q rec : Nat) : State :=
  let t := s.tq q
  let body := rec - natBits rec 345 10 * 2 ^ 345 + t.cls % 4 * 2 ^ 345 + t.tenant % 256 * 2 ^ 347
  (s.poke (t.slot t.tail) (leBytes 64 body)).onTq q (fun t =>
    { t with tail := t.tail + 1, times := Tbl.set 0 t.times t.tail.toNat s.time })

/-- The record at HEAD taken (R297): the place it had is free. -/
def State.takeHead (s : State) (q : Nat) : State :=
  s.onTq q (fun t => { t with head := t.head + 1, times := Tbl.erase t.head.toNat t.times })

/-- The QOP event (R319). -/
def State.qop (s : State) (op q st served after : Nat) : State :=
  s.emitTm 0x08 (op * 2 ^ 60 + q % 256 * 2 ^ 52 + st % 8 * 2 ^ 49 + served % 2048 * 2 ^ 38 + after % 2 ^ 32) false

/-- The 64 bytes at a scratchpad offset, or why they cannot be used. -/
def State.recordPlace (s : State) (ls : List Nat) (off : Nat) : Except FaultReq (List PByte) :=
  if s.grpOf.size < off + 64 then .error (uniformFault ls { code := 0x14, addr := off })
  else
    let bs := s.grpOf.sBytes s.ck off 64
    if bs.any s.guarded then .error stall else .ok bs

/-- ENQ (R302). -/
def execEnq (h : Head) (o : FmtA) (s : State) : Out :=
  .next (s.issue (.enq h o) true false (fun s => do
    let off := (s.rs o.a.toNat).toNat
    let q := (s.rs o.b.toNat).toNat
    let ls := s.lanesNow h.guard
    failIf (off % 64 != 0 || decide (255 < q)) (faultOf 0x24 0)
    failIf (decide (s.grpOf.size < off + 64)) (uniformFault ls { code := 0x14, addr := off })
    failIf ((s.tq q).tenant != s.tm.id.tenant) (privilege q)
    let bs ← s.recordPlace ls off
    let (rec, bad) := s.seeBytes s.ck 0 bs
    failIf bad (poison 3 0 (ls.headD 0) true off)
    let s := s.resetSpin
    let st := if !(s.tq q).en then 2 else if (s.tq q).full then 1 else 0
    let s := if st = 0 then s.enqueue q (leNat rec) else s
    pure ((s.wsn o.d.toNat st).qop 0 q st 0 (s.tq q).tail.toNat)))

/-- DEQ, the pull form (R303). -/
def execDeq (h : Head) (o : FmtA) (s : State) : Out :=
  .next (s.issue (.deq h o) true false (fun s => do
    let off := (s.rs o.a.toNat).toNat
    let q := (s.rs o.b.toNat).toNat
    let ls := s.lanesNow h.guard
    failIf (decide (255 < q)) (faultOf 0x24 0)
    failIf ((s.tq q).tenant != s.tm.id.tenant) (privilege q)
    failIf (off % 64 != 0) (faultOf 0x24 0)
    let bs ← s.recordPlace ls off
    let t := s.tq q
    let st := if !t.pull || !t.en then 2 else if t.count = 0 then 1 else 0
    if st ≠ 0 then pure ((s.wsn o.d.toNat st).qop 1 q st 0 t.head.toNat)
    else
      let pa := t.slot t.head
      failIf (s.mem.unc pa 64) (poison 3 0 (ls.headD 0) true pa)
      let s := ((s.storeBytes s.ck bs (s.mem.read pa 64)).takeHead q).l1Acquire s.ck 5 false
      pure ((s.wsn o.d.toNat 0).qop 1 q 0 0 (s.tq q).head.toNat)))

/-- DEQ.hdr and DEQ.arg (R303). -/
def execDeqHdr (h : Head) (o : FmtA) (s : State) : Out :=
  .next (s.issue (.deqHdr h o) true false (fun s =>
    .ok (s.wsn o.d.toNat (recBits s.grpOf.hdr (64 * o.a.toNat) 64))))

def execDeqArg (h : Head) (o : FmtA) (s : State) : Out :=
  .next (s.issue (.deqArg h o) true false (fun s => .ok (s.wsn o.d.toNat (recBits s.grpOf.hdr 64 60))))

/-! Access queues (R307). -/

/-- The control word of queue `q` of the issuing group. -/
def State.aq (s : State) (q : Nat) : Word := Tbl.get 0 s.grpOf.queues q
def State.onAq (s : State) (q : Nat) (f : Word → Word) : State :=
  s.onGroup s.ck s.tm.id.grp (fun g => { g with queues := Tbl.upd 0 g.queues q f })

def qTail (w : Word) : Nat := natBits w.toNat 48 16
def qHead (w : Word) : Nat := natBits w.toNat 32 16
def qEsize (w : Word) : Nat := 8 * 2 ^ natBits w.toNat 30 2
def qDlog (w : Word) : Nat := natBits w.toNat 26 4
def qClosed (w : Word) : Bool := w.getLsbD 25
def qPflt (w : Word) : Bool := w.getLsbD 24
def qBase (w : Word) : Nat := natBits w.toNat 0 22
def qCount (w : Word) : Nat := (qTail w + 2 ^ 16 - qHead w) % 2 ^ 16
def qSetTail (w : Word) (n : Nat) : Word := w &&& 0x0000_FFFF_FFFF_FFFF ||| (BitVec.ofNat 64 n <<< 48)
def qSetHead (w : Word) (n : Nat) : Word := w &&& 0xFFFF_0000_FFFF_FFFF ||| (BitVec.ofNat 64 (n % 2 ^ 16) <<< 32)

/-- The bytes of element `n` of an access queue. -/
def State.aqBytes (s : State) (w : Word) (n : Nat) : List PByte :=
  s.grpOf.sBytes s.ck (qBase w + qEsize w * (n % 2 ^ qDlog w)) (qEsize w)

/-- The queue fault with reason 1 (R312). -/
def queueFault : FaultReq := faultOf 0x24 1

/-- QCW.rd and QCW.rst (R311). -/
def execQcwRd (h : Head) (o : FmtA) (s : State) : Out :=
  .next (s.issue (.qcwRd h o) true false (fun s => do
    let w := s.aq (o.c.toNat % 8)
    failIf (qDlog w == 0) queueFault
    pure (s.ws o.d.toNat w)))

def execQcwRst (h : Head) (o : FmtA) (s : State) : Out :=
  .next (s.issue (.qcwRst h o) true false (fun s => do
    let q := o.c.toNat % 8
    failIf (qDlog (s.aq q) == 0) queueFault
    pure ((s.onAq q (fun w => w &&& 0x0000_0000_FCFF_FFFF)).qop 5 q 0 0 0)))

/-- QPUSH (R309): a full queue stalls the gatherer. -/
def execQpush (h : Head) (o : FmtA) (s : State) : Out :=
  .next (s.issue (.qpush h o) true false (fun s => do
    let q := o.c.toNat % 8
    let w := s.aq q
    let n := qEsize w / 8
    failIf (qDlog w == 0) queueFault
    failIf (decide (31 < o.a.toNat + n - 1)) illegal
    failIf (decide (2 ^ qDlog w ≤ qCount w)) stall
    let bs := s.aqBytes w (qTail w)
    failIf (bs.any s.guarded) stall
    let xs := (List.range n).flatMap (fun i => leBytes 8 (s.rs (o.a.toNat + i)).toNat)
    let t := (qTail w + 1) % 2 ^ 16
    pure (((s.storeBytes s.ck bs xs).onAq q (fun w => qSetTail w t)).qop 2 q 0 0 t)))

/-- Whether a pop of `k` elements can be served, and how many it gets (R310). -/
def qServes (w : Word) (k : Nat) : Option Nat :=
  if k ≤ qCount w then some k else if qClosed w || qPflt w then some (qCount w) else none

/-- Teams of the issuing group that wait at queue `q`, in the order in which they began. -/
def State.poppers (s : State) (k g q : Nat) : List (Nat × Wait) :=
  let ws := ((s.core k).group g).slots.filterMap (fun i =>
    match (s.team k i).wait with
    | some w => (match w.kind with | .pop _ q' _ _ _ => if q' = q then some (i, w) else none | _ => none)
    | none => none)
  ws.foldr (fun x acc => (acc.takeWhile (fun y => y.2.since < x.2.since)) ++ x :: acc.dropWhile (fun y => y.2.since < x.2.since)) []

/-- The pop itself by the issuing team (R310): `n` elements to the first of the served lanes; the status word. -/
def State.popNow (s : State) (peek : Bool) (q d : Nat) (ls : List Nat) (n : Nat) : State × Nat :=
  let w := s.aq q
  let k := ls.length
  let regs := qEsize w / 8
  let els := (ls.take n).zip (List.range n) |>.map (fun p => (p.1, s.aqBytes w (qHead w + p.2)))
  let s := (List.range regs).foldl (fun s r =>
    s.wv (d + r) (els.map (fun e =>
      let (bs, bad) := s.seeBytes s.ck 1 ((e.2.drop (8 * r)).take 8)
      (e.1, { val := BitVec.ofNat 64 (leNat bs), pz := bad })))) s
  let head := (qHead w + if peek then 0 else n) % 2 ^ 16
  let s := s.onAq q (fun w => qSetHead w head)
  let st := if n = k then 0 else if qPflt w then 4 else 2
  (s.qop (if peek then 4 else 3) q st n head, n * 2 ^ 32 + st)

/-- Whether the elements of a pop may be read now (R246). -/
def State.popFree (s : State) (q n : Nat) : Bool :=
  let w := s.aq q
  !((List.range n).any (fun i => (s.aqBytes w (qHead w + i)).any s.guarded))

/-- The body of QPOP and QPEEK: an earlier waiter at the queue goes first; with no lane served the instruction completes (R26, R89). -/
def popBody (h : Head) (o : FmtA) (peek : Bool) : Body := fun s => do
  let q := o.c.toNat % 8
  let w := s.aq q
  let ls := s.lanes h.guard
  let k := ls.length
  failIf (qDlog w == 0 || decide (2 ^ qDlog w < k) || decide (s.tm.id.budget < o.d.toNat + qEsize w / 8)) queueFault
  let served := if ls.isEmpty || (s.poppers s.ck s.tm.id.grp q).isEmpty then qServes w k else none
  match served with
  | some n =>
    failIf (!s.popFree q n) stall
    let (s, st) := s.popNow peek q o.d.toNat ls n
    pure (s.wsn o.b.toNat st)
  | none => pure (s.beginWait (.pop peek q o.d.toNat o.b.toNat (maskOf ls)) o.b.toNat 15 false)

def execQpop (h : Head) (o : FmtA) (s : State) : Out := .next (s.issue (.qpop h o) false false (popBody h o false))
def execQpeek (h : Head) (o : FmtA) (s : State) : Out := .next (s.issue (.qpeek h o) false false (popBody h o true))

/-- The entry of a wait put in front, so that its results count as its own. -/
def Team.front (t : Team) (id : Nat) : Team :=
  { t with fly := t.fly.filter (fun f => f.id == id) ++ t.fly.filter (fun f => f.id != id) }

/-- The first waiter of a queue served if it can be (R310); whether it was. -/
def State.servePop (s : State) (k g q : Nat) : State × Bool :=
  match s.poppers k g q with
  | [] => (s, false)
  | (i, w) :: _ =>
    match w.kind with
    | .pop peek _ d _ lanes =>
      let cur := s.cur
      let s' := { s with cur := .team k i }
      let ls := lanesOf s'.nl lanes
      match qServes (s'.aq q) ls.length with
      | none => (s, false)
      | some n =>
        if !s'.popFree q n then (s, false)
        else
          let (s', st) := (s'.onTm (·.front w.fly)).popNow peek q d ls n
          ({ s' with cur := cur }.endWait k i st, true)
    | _ => (s, false)

/-- Waiters of a queue served in order, at most `fuel` of them. -/
def State.servePops (k g q : Nat) : Nat → State → State
  | 0, s => s
  | n + 1, s =>
    let (s, more) := s.servePop k g q
    if more then State.servePops k g q n s else s

end Sys2Proof.Machine
end

