-- ==== Sys2Proof/Machine/Engines.lean ====
section
/-! DEFINITION. Copies and collectives (12 R285 to R295, 10 R245, R246, 15 R344, R345, 18 R416, R418). -/

namespace Sys2Proof.Machine

/-! Tensor view descriptors (R344, R345). -/
def vBase (d : BitVec 512) : Nat := recBits d 448 64
def vExt (d : BitVec 512) (k : Nat) : Nat := recBits d (288 + 32 * k) 32
def vStr (d : BitVec 512) (k : Nat) : Nat := recBits d (88 + 40 * k) 40
def vMode (d : BitVec 512) (k : Nat) : Nat := recBits d (55 + 5 * k) 2
def vAxis (d : BitVec 512) (k : Nat) : Nat := recBits d (57 + 5 * k) 3
def vRank (d : BitVec 512) : Nat := recBits d 4 3
def vEsize (d : BitVec 512) : Nat := 2 ^ recBits d 0 3

/-- A well-formed view descriptor (R345). -/
def viewOk (d : BitVec 512) : Bool :=
  let r := vRank d
  let sharded := (List.range 5).filter (fun k => vMode d k != 0)
  recBits d 7 48 == 0 && recBits d 3 1 == 0 && decide (1 ≤ r ∧ r ≤ 5) && decide (recBits d 0 3 ≤ 4)
  && (List.range 5).all (fun k =>
    if k < r then decide (1 ≤ vExt d k) else vExt d k == 0 && vStr d k == 0 && recBits d (55 + 5 * k) 5 == 0)
  && decide ((sharded.map (vAxis d)).Nodup) && (!sharded.isEmpty || recBits d 80 8 == 0)

/-- Elements of a view. -/
def viewCount (d : BitVec 512) : Nat := (List.range (vRank d)).foldl (fun a k => a * vExt d k) 1

/-- Whether a view says "not sharded". -/
def viewWhole (d : BitVec 512) : Bool := (List.range 5).all (fun k => vMode d k == 0)

/-- The address of element `n` of an unsharded view (R345). -/
def viewAddr (d : BitVec 512) (n : Nat) : Nat :=
  let r := (List.range (vRank d)).foldl (fun (acc : Int × Nat) k =>
    (acc.1 + (acc.2 % vExt d k : Nat) * toInt true 40 (vStr d k), acc.2 / vExt d k)) ((vBase d : Int), n)
  wrapInt 64 r.1

/-- Whether every element address is aligned to the element size (R288). -/
def viewAligned (d : BitVec 512) : Bool :=
  vBase d % vEsize d == 0 && (List.range (vRank d)).all (fun k => vExt d k == 1 || vStr d k % vEsize d == 0)

/-! Control words (R287, R289): spaces and swizzle of a copy. -/
def Copy.ssp (c : Copy) : Bool := if c.kind = 2 then c.d1.getLsbD 2 else c.sb.getLsbD 31
def Copy.dsp (c : Copy) : Bool := if c.kind = 2 then c.d1.getLsbD 3 else c.sb.getLsbD 30
def Copy.swzMode (c : Copy) : Nat := if c.kind = 2 then recBits c.d1 4 2 else natBits c.sb.toNat 28 2

/-! Gather descriptor (R289). -/
def gRows (d : BitVec 512) : Nat := recBits d 224 32
def gRowb (d : BitVec 512) : Nat := recBits d 192 32
def gSstr (d : BitVec 512) : Nat := recBits d 128 64
def gDstr (d : BitVec 512) : Nat := recBits d 64 64
def gIdx (d : BitVec 512) : Nat := recBits d 32 32

def gatherOk (d : BitVec 512) : Bool :=
  decide (1 ≤ gRows d ∧ gRows d ≤ 65535) && decide (16 ≤ gRowb d ∧ gRowb d ≤ 65520) && gRowb d % 16 == 0
  && gSstr d % 16 == 0 && gDstr d % 16 == 0 && gIdx d % 4 == 0 && recBits d 6 26 == 0 && recBits d 0 2 == 0
  && decide (gRows d * gRowb d ≤ 16777215)

/-- The copy-operand fault. -/
def copyOp : FaultReq := faultOf 0x21

/-- The group and the agent of a copy, so that its accesses are made for it. -/
def State.asIssuer (s : State) (k : Nat) (i : Issuer) : State := { s with cur := .team k i.slot }

/-- Where stream byte `n` of a copy is written: the space (.s) and the address. -/
def Copy.dst (c : Copy) (n : Nat) : Bool × Nat :=
  (c.dsp, match c.kind with
    | 0 => (c.sd.toNat + n) % 2 ^ 64
    | 1 => (viewAddr c.d1 (n / vEsize c.d1) + n % vEsize c.d1) % 2 ^ 64
    | _ => (c.sd.toNat + n / gRowb c.d1 * gDstr c.d1 + n % gRowb c.d1) % 2 ^ 64)

/-- The index of row `m` of a gather, and whether it arrives uncorrectable (R289); one beyond the group's allocation is the
scratchpad-range fault (R236). -/
def State.rowIndex (s : State) (k : Nat) (g : Group) (c : Copy) (m : Nat) : Except AccErr (Nat × Bool) :=
  let a := gIdx c.d1 + 4 * m
  if g.size < a + 4 then .error { code := 0x14, addr := a }
  else
    let r := s.seeBytes k 0 (g.sBytes k a 4)
    .ok (leNat r.1, r.2)

/-- Where stream byte `n` of a copy is read, or the condition of a byte that is read nowhere: a row whose index is 0xFFFF_FFFF is zero
bytes, and one whose index arrives uncorrectable is uncorrectable (R289, R290; log 54). -/
def State.copySrc (s : State) (k : Nat) (g : Group) (c : Copy) (n : Nat) : Except AccErr (Bool ⊕ (Bool × Nat)) :=
  match c.kind with
  | 0 => .ok (.inr (c.ssp, (c.sa.toNat + n) % 2 ^ 64))
  | 1 => .ok (.inr (c.ssp, (viewAddr c.d2 (n / vEsize c.d2) + n % vEsize c.d2) % 2 ^ 64))
  | _ => do
    let (x, bad) ← s.rowIndex k g c (n / gRowb c.d1)
    if bad then pure (.inl true)
    else if x = 0xFFFF_FFFF then pure (.inl false)
    else pure (.inr (c.ssp, (c.sa.toNat + x * gSstr c.d1 + n % gRowb c.d1) % 2 ^ 64))

/-- The class of a destination byte: the core whose window holds it (R291). -/
def PByte.window (b : PByte) : Option Nat :=
  match b.dev with
  | some _ => none
  | none =>
    if 0xF00_0000_0000 ≤ b.pa ∧ b.pa < 0xF01_8000_0000 then some ((b.pa - 0xF00_0000_0000) / 0x200_0000)
    else none

/-- The group that owns a byte of a register, cursor or accumulator region (R235). -/
def State.regOwner (s : State) (r : Region) : Option Nat :=
  match r with
  | .vregs j o => ((s.core j).vregOwner (o / 256)).map (fun x => (s.team j x.1).id.grp)
  | .cursors j o => ((s.core j).laneOwner (o / 128)).map (fun x => (s.team j x.1).id.grp)
  | .accum j _ => (s.core j).mat.holder
  | _ => none

/-- Groups of a task on a core that hold named barrier `b`, by lowest slot. -/
def State.holders (s : State) (j tag b : Nat) : List Nat :=
  ((s.core j).groups.filter (fun e => e.2.tag == tag && decide (b < e.2.nbar) && !e.2.slots.isEmpty)).map Prod.fst

/-- The core and group whose barrier bK the copy counts at (R291): for a destination in another core's window, a group of the
task there that holds bK; otherwise the issuing group. -/
def State.copyTarget (s : State) (k : Nat) (c : Copy) (first : Option PByte) : Option (Nat × Nat) :=
  match first with
  | none => some (k, c.iss.grp)
  | some b =>
    match b.window with
    | none => some (k, c.iss.grp)
    | some j =>
      if j = k then some (k, c.iss.grp)
      else
        let hs := s.holders j c.iss.tag c.k
        match s.region b with
        | .scratch _ o =>
          let inside := hs.find? (fun h => let g := (s.core j).group h; decide (g.base ≤ o ∧ o < g.base + g.size))
          ((inside.orElse (fun _ => hs.head?))).map (fun h => (j, h))
        | r => match s.regOwner r with
          | some h => if hs.contains h then some (j, h) else none
          | none => none

/-- Whether a copy may reach a window region (R234, R235), with its target. -/
def State.copyRegionOk (s : State) (c : Copy) (target : Option (Nat × Nat)) (b : PByte) : Bool :=
  match s.region b with
  | .weights .. | .control .. => false
  | .vregs j _ | .cursors j _ | .accum j _ =>
    match s.regOwner (s.region b), target with
    | some h, some (tj, th) => tj == j && th == h && ((s.core j).group h).tag == c.iss.tag && decide (c.k < ((s.core j).group h).nbar)
    | _, _ => false
  | _ => true

/-- A byte of a .s offset of a group, through the swizzle (R239). -/
def scratchAt (k : Nat) (g : Group) (mode o : Nat) : Except AccErr PByte :=
  if g.size ≤ o then .error { code := 0x14, addr := o } else .ok (g.sByte k (swz mode o))

/-- Where a byte of a copy lies, with the leaf used (0 for .s). -/
def State.copyPlace (s : State) (k : Nat) (g : Group) (c : Copy) (wr : Bool) (p : Bool × Nat) : Except AccErr (PByte × Nat) :=
  if p.1 then (scratchAt k g c.swzMode p.2).map (fun b => (b, 0))
  else atAddr p.2 ((s.translate k c.iss.tenant p.2 (!wr) wr false).map (fun e => (s.pbyte e p.2, e)))

/-- Why a copy may not reach bytes at their places: a hole or a device without a route, or a window region (R230, R234, R235). -/
def State.copyPlaceErr (s : State) (c : Copy) (target : Option (Nat × Nat)) (bs : List PByte) : Option AccErr :=
  if bs.any (fun b => !s.exists_ b) then some { code := 0x13 }
  else if bs.any (fun b => !s.copyRegionOk c target b) then some { code := 0x18 } else none

/-- A byte of a copy at its place, checked; a scaled page is the format fault (R288, R289). -/
def State.copyByte (s : State) (k : Nat) (g : Group) (c : Copy) (target : Option (Nat × Nat)) (wr : Bool) (p : Bool × Nat) :
    Except AccErr PByte := do
  let (b, e) ← s.copyPlace k g c wr p
  if let some x := s.copyPlaceErr c target [b] then throw { x with addr := p.2 }
  if pteFmt e ≠ 0 then throw { code := 0x16, addr := p.2 }
  pure b

/-- The range of scratchpad offsets that bytes of one core's window cover (R246). -/
def State.coverOf (s : State) (bs : List PByte) : Option (Nat × Nat × Nat) :=
  let os := bs.filterMap (fun b => match s.region b with | .scratch j o => some (j, o) | _ => none)
  match os with
  | [] => none
  | (j, o) :: t => some (j, t.foldl (fun a x => min a x.2) o, t.foldl (fun a x => max a (x.2 + 1)) (o + 1))

/-- Bytes of a tile record and where it lies: format code, device, payload and entry (R214, R287). -/
structure TileRun where
  code : Nat
  dev : Option Nat
  pay : Nat
  ent : Nat
deriving DecidableEq, Repr

/-- The bytes of records r0 to r1 − 1 of a run: their payloads, then their entries. -/
def TileRun.bytes (t : TileRun) (r0 r1 : Nat) : List PByte :=
  let p := payloadBytes t.code
  ((List.range ((r1 - r0) * p)).map (fun i => { dev := t.dev, pa := t.pay + r0 * p + i }))
    ++ ((List.range ((r1 - r0) * 16)).map (fun i => { dev := t.dev, pa := t.ent + r0 * 16 + i }))

/-- The run of tiles of a scaled leaf from an address on, and how many records of a stream lie in its page (R287). -/
def State.runAtLeaf (s : State) (leaf a total : Nat) : TileRun × Nat :=
  let p := payloadBytes (pteFmt leaf)
  let t := a % 65536 / p
  ({ code := pteFmt leaf, dev := s.leafDev leaf, pay := pteAddr leaf + t * p, ent := pteSframe leaf + 16 * t },
   min (total / (p + 16)) (pageTiles (pteFmt leaf) - t))

/-- The bytes of a copy's destination that can be placed now: those of the tiles, where it is a stream of records (R287). -/
def State.dstBytes (s : State) (k : Nat) (g : Group) (c : Copy) : List PByte :=
  let plain := (List.range c.total).filterMap (fun n => (s.copyPlace k g c true (c.dst n)).toOption.map Prod.fst)
  if c.kind ≠ 0 ∨ c.dsp then plain
  else match s.copyPlace k g c true (c.dst 0) with
    | .ok (_, e) => if pteFmt e = 0 then plain else let r := s.runAtLeaf e c.sd.toNat c.total; r.1.bytes 0 r.2
    | .error _ => plain

/-- A free range-guard entry of a core. -/
def State.freeGuard (s : State) (j : Nat) : Option Nat :=
  (List.range 16).find? (fun i => !(Tbl.get {} (s.core j).tabs.guard i).v)

/-- A range-guard entry taken for a copy (R245), or none free. -/
def State.takeGuard (s : State) (j lo hi k : Nat) (c : Copy) (bar : Nat) : Option (State × Nat) :=
  (s.freeGuard j).map (fun i =>
    let ent : Guard := { v := true, bar := bar, src := k, base := lo, last := hi, copy := c.id }
    (s.onTabs j (fun t => { t with guard := Tbl.set {} t.guard i ent }), i))

/-- The destinations of a command lie in one core's window, or all outside every window (R291). -/
def oneWindow (bs : List PByte) : Bool :=
  decide ((bs.map PByte.window).dedup.length ≤ 1)

/-- A descriptor of the issuing group before its checks: what decides where the command's destination lies; 0 where there is none. -/
def State.peekDesc (s : State) (off n : Nat) : BitVec 512 :=
  if off % n = 0 ∧ off + n ≤ s.grpOf.size then BitVec.ofNat 512 (leNat (s.seeBytes s.ck 0 (s.grpOf.sBytes s.ck off n)).1) else 0

/-- The place of the first destination byte of a command of the issuing team, when it can be placed. -/
def State.firstDst (s : State) (c : Copy) : Option PByte :=
  if c.kind = 3 then none
  else (s.copyPlace s.ck s.grpOf { c with iss := { tenant := s.tm.id.tenant } } true (c.dst 0)).toOption.map Prod.fst

/-- Whether a command's destination lies in another core's window (R291), and in the issuing core's scratchpad. -/
def State.dstAway (s : State) (c : Copy) : Bool :=
  match (s.firstDst c).bind PByte.window with | some j => j != s.ck | none => false
def State.dstOwn (s : State) (c : Copy) : Bool :=
  match (s.firstDst c).map s.region with | some (.scratch j _) => j == s.ck | _ => false

/-- What comes before an engine command's own checks: a copy into its core's scratchpad is not eligible while no range-guard entry is
free (R246); then, in the order of R104, a barrier that the group does not have (R286), and a reconvergence stack that is not empty,
both whatever the guard. -/
def State.enginePre (s : State) (c : Copy) : Except FaultReq Unit := do
  failIf (s.dstOwn c && (s.freeGuard s.ck).isNone) stall
  failIf (!c.nb && !s.dstAway c && decide (s.grpOf.nbar ≤ c.k)) illegal
  failIf (!s.tm.path.stack.isEmpty) (faultOf 0x03 0 0 s.tm.path.stack.length)

/-- The issue of an engine command `c` (R286): it takes effect when its guard holds in a lane. -/
def State.engineIssue (s : State) (i : Instr) (g : BitVec 4) (c : State → Copy) (body : Copy → Body) : Out :=
  .next (s.issue i false false (fun s => do
    s.enginePre (c s)
    if (s.lanesNow g).isEmpty then pure s else body (c s) s))

/-- 64, or fewer, bytes of the group's scratchpad read at issue (R286): misaligned is the copy-operand fault. -/
def State.readDesc (s : State) (ls : List Nat) (off n : Nat) : Except FaultReq Nat := do
  failIf (off % n != 0) copyOp
  failIf (decide (s.grpOf.size < off + n)) (uniformFault ls { code := 0x14, addr := off })
  let bs := s.grpOf.sBytes s.ck off n
  failIf (bs.any s.guarded) stall
  let r := s.seeBytes s.ck 0 bs
  failIf r.2 (poison 3 0 (ls.headD 0) true off)
  pure (leNat r.1)

/-- Who issues the command now issuing. -/
def State.issuer (s : State) : Issuer :=
  let t := s.tm
  { slot := s.slot, grp := t.id.grp, gref := t.id.gref, tag := t.id.tag, tenant := t.id.tenant, pc := s.ipc
    cls := t.id.cls, fly := (t.fly.head?.map (·.id)).getD 0 }

/-- A copy accepted by the copy engine (R246, R286): the guard entry of a destination in the issuing core's scratchpad, the event. -/
def State.acceptCopy (s : State) (c : Copy) : Except FaultReq State := do
  let k := s.ck
  let g := s.grpOf
  let c := { c with id := s.cr.nextCopy, iss := s.issuer }
  let bs := s.dstBytes k g c
  failIf (!c.dsp && !oneWindow bs) copyOp
  let (s, c) ← match s.coverOf bs with
    | some (j, lo, hi) =>
      if j ≠ k then pure (s, c)
      else match s.takeGuard k lo hi k c (g.bbase + c.k) with
        | none => throw stall
        | some (s, i) => pure (s, { c with gcore := some k, gent := some i })
    | none => pure (s, c)
  let bytes := if c.kind = 0 then c.total else 0
  let s := s.resetSpin.emitTm 0x0C (c.kind * 2 ^ 62 + c.k % 32 * 2 ^ 57 + c.nb.toNat * 2 ^ 56 + bytes * 2 ^ 32 + c.sd.toNat % 2 ^ 32) false
  pure (s.onCore k (fun x => { x with copies := x.copies ++ [c], nextCopy := x.nextCopy + 1 }))

/-- The operands of a copy: its three scalars, K and .nb. -/
def copyOps (kind : Nat) (o : FmtA) (s : State) : Copy :=
  { kind, sd := s.rs o.d.toNat, sa := s.rs o.a.toNat, sb := s.rs o.b.toNat, k := o.c.toNat % 32, nb := o.c.getLsbD 5 }

/-- CPY (R287, R291). -/
def execCpy (h : Head) (o : FmtA) (s : State) : Out :=
  s.engineIssue (.cpy h o) h.guard (copyOps 0 o) (fun c s => do
    let n := natBits c.sb.toNat 0 24
    failIf (natBits c.sb.toNat 32 32 != 0 || natBits c.sb.toNat 24 4 != 0 || decide (n < 16 ∨ 16777200 < n) || n % 16 != 0
      || c.sd.toNat % 16 != 0 || c.sa.toNat % 16 != 0) copyOp
    s.acceptCopy { c with total := n })

/-- CPYT (R288). -/
def execCpyt (h : Head) (o : FmtA) (s : State) : Out :=
  s.engineIssue (.cpyt h o) h.guard (fun s => let c := copyOps 1 o s; { c with d1 := s.peekDesc c.sd.toNat 64 }) (fun c s => do
    let ls := s.lanesNow h.guard
    failIf (natBits c.sb.toNat 32 32 != 0 || natBits c.sb.toNat 0 28 != 0) copyOp
    let d1 := BitVec.ofNat 512 (← s.readDesc ls c.sd.toNat 64)
    let d2 := BitVec.ofNat 512 (← s.readDesc ls c.sa.toNat 64)
    failIf (!(viewOk d1 && viewOk d2 && viewWhole d1 && viewWhole d2) || vEsize d1 != vEsize d2 || viewCount d1 != viewCount d2
      || decide (16777215 < viewCount d1 * vEsize d1) || !(viewAligned d1 && viewAligned d2)) copyOp
    s.acceptCopy { c with d1, d2, total := viewCount d1 * vEsize d1 })

/-- CPYG (R289). -/
def execCpyg (h : Head) (o : FmtA) (s : State) : Out :=
  s.engineIssue (.cpyg h o) h.guard (fun s => let c := copyOps 2 o s; { c with d1 := s.peekDesc c.sb.toNat 32 }) (fun c s => do
    let d1 := BitVec.ofNat 512 (← s.readDesc (s.lanesNow h.guard) c.sb.toNat 32)
    failIf (!gatherOk d1) copyOp
    s.acceptCopy { c with d1, total := gRows d1 * gRowb d1 })

/-! A block of a copy (R290 to R292). -/

/-- The run of tile records that a copy's stream takes in a scaled page from an address on, or none when the page is not scaled; a
placement that breaks R287 is the format fault, behind those of the places of the records (R230, R234, R275). -/
def State.tileRun (s : State) (c : Copy) (target : Option (Nat × Nat)) (k a : Nat) (wr : Bool) : Except AccErr (Option TileRun) :=
  atAddr a (do
    let e ← s.translate k c.iss.tenant a (!wr) wr false
    let code := pteFmt e
    if code = 0 then pure none
    else
      let p := payloadBytes code
      let (run, n) := s.runAtLeaf e a c.total
      if let some x := s.copyPlaceErr c target (run.bytes 0 n) then throw x
      if a % p ≠ 0 ∨ c.total % (p + 16) ≠ 0 ∨ n < c.total / (p + 16) then throw { code := 0x16 }
      pure (some run))

/-- Record `r` of a run as bytes with their condition (R287). -/
def State.tileRecord (s : State) (t : TileRun) (r : Nat) : List (Byte × Bool) :=
  let p := payloadBytes t.code
  ((List.range p).map (fun i => s.homeByte { dev := t.dev, pa := t.pay + r * p + i }))
    ++ ((List.range 16).map (fun i => s.homeByte { dev := t.dev, pa := t.ent + 16 * r + i }))

/-- The source bytes of a block [lo, hi), the source buffer left over, and the places read. -/
def State.blockSrc (s : State) (k : Nat) (g : Group) (c : Copy) (target : Option (Nat × Nat)) (run : Option TileRun) (lo hi : Nat) :
    Except AccErr (List (Byte × Bool) × List (Byte × Bool) × List PByte) :=
  match run with
  | some t =>
    let size := payloadBytes t.code + 16
    let r0 := (lo + c.srcBuf.length) / size
    let r1 := (hi + size - 1) / size
    let all := c.srcBuf ++ (List.range (r1 - r0)).flatMap (fun i => s.tileRecord t (r0 + i))
    .ok (all.take (hi - lo), all.drop (hi - lo), t.bytes r0 r1)
  | none => do
    let bs ← (List.range (hi - lo)).mapM (fun i => do
      match ← s.copySrc k g c (lo + i) with
      | .inl bad => pure (((0 : Byte), bad), none)
      | .inr p =>
        let b ← s.copyByte k g c target false p
        pure (s.homeByte b, some b))
    pure (bs.map Prod.fst, [], bs.filterMap Prod.snd)

/-- The payload and entry that a tile record of a stream writes: SEQ is raised whatever the record holds (R287). -/
def State.recordData (s : State) (t : TileRun) (r : Nat) (bs : List (Byte × Bool)) : List Byte :=
  (bs.take (payloadBytes t.code + 12)).map Prod.fst ++ leBytes 4 (s.nextSeq t.dev (t.ent + 16 * r))

/-- Whether any of `n` whole records of a stream would set reserved bits of a cursor (R235; log 130). -/
def State.recordsReserved (s : State) (t : TileRun) (r n : Nat) (bs : List (Byte × Bool)) : Bool :=
  (List.range n).any (fun j =>
    ((t.bytes (r + j) (r + j + 1)).zip (s.recordData t (r + j) (bs.drop (j * (payloadBytes t.code + 16))))).any
      (fun x => s.cursorReserved x.1 x.2))

/-- Whole tile records of a stream written, each as one tile write with SEQ raised (R287); record numbers rise from `r`. -/
def State.putRecords (s : State) (k : Nat) (t : TileRun) : Nat → Nat → List (Byte × Bool) → State
  | 0, _, _ => s
  | n + 1, r, bs =>
    let p := payloadBytes t.code
    if bs.length < p + 16 then s
    else
      let pay := t.pay + r * p
      let ent := t.ent + 16 * r
      let raw := s.recordData t r bs
      let s := s.putTile k t.dev pay ent (raw.take p) (leNat (raw.drop p))
      let bad := ((bs.take p).any Prod.snd, ((bs.drop p).take 16).any Prod.snd)
      let s := if t.dev.isSome then s else s.onMem (fun m =>
        let m := ((bs.take p).zip (List.range p)).foldl (fun m e => if e.1.2 then m.spoil (pay + e.2) else m) m
        if bad.2 then m.spoil ent else m)
      State.putRecords s k t n (r + 1) (bs.drop (p + 16))

/-- Bytes that land are counted at the barrier (R354); a barrier whose STAT is not zero takes none. -/
def State.landBytes (s : State) (j h : Nat) (c : Copy) (n : Nat) : State :=
  let b := ((s.core j).group h).bbase + c.k
  if (s.nbar j b).stat ≠ 0 then s
  else s.onNbar j b (fun x => { x with exp := (x.exp + 2 ^ 24 - n % 2 ^ 24) % 2 ^ 24, who := c.iss.slot })

/-- Status bits of an engine command: set at its completion in the team that issued it (R55). -/
def State.lateStat (s : State) (k : Nat) (i : Issuer) (bits : Nat) : State :=
  if (s.team k i.slot).id.gref = i.gref then
    s.onTeam k i.slot (fun t =>
      { t with fly := t.fly.map (fun f => if f.id == i.fly then { f with stat := f.stat ||| BitVec.ofNat 32 bits } else f) })
  else s

/-- Whether the team that issued a command still has earlier accesses held, which the command's accesses follow (R258, R266). -/
def State.earlierHeld (s : State) (k : Nat) (i : Issuer) : Bool :=
  let t := s.team k i.slot
  t.id.gref == i.gref && t.fly.any (fun f => decide (f.id < i.fly) && !f.held.isEmpty)

def State.onCopy (s : State) (k id : Nat) (f : Copy → Copy) : State :=
  s.onCore k (fun x => { x with copies := x.copies.map (fun c => if c.id == id then f c else c) })

/-- A copy leaves its engine: its guard entry clears and its flag falls (R290). -/
def State.retireCopy (s : State) (k : Nat) (c : Copy) (outcome : Nat) : State :=
  let s := (s.cpyc k c outcome).freeGuardOf c
  let s := s.onCore k (fun x => { x with copies := x.copies.filter (fun y => y.id != c.id) })
  if (s.team k c.iss.slot).id.gref = c.iss.gref then s.onTeam k c.iss.slot (·.complete c.iss.fly) else s

/-- A copy stops at a fault with its record (R292, R378). -/
def State.copyFault (s : State) (k : Nat) (c : Copy) (e : AccErr) : State :=
  let t := s.team k c.iss.slot
  let (a, b) := t.tops
  let s := s.dropFailedAt k c.iss.tenant e
  let page := if e.code = 0x12 then (pageEntry e.page e.reason 0 0).toNat else 0
  let slot1 := BitVec.ofNat 512 (e.addr * 2 ^ 448 + page * 2 ^ 320)
  let conts := slot1 :: (match c.kind with | 1 => [c.d1, c.d2] | 2 => [c.d1] | _ => [])
  let r : RecHead :=
    { gref := c.iss.gref, rtop := a, rnext := b, code := e.code, reason := e.reason, agent := 2, pend := true
      tenant := c.iss.tenant, core := k, tslot := c.iss.slot, next := conts.length
      body := c.sd.toNat * 2 ^ 192 + c.sa.toNat * 2 ^ 128 + c.sb.toNat * 2 ^ 64 + c.prog % 2 ^ 24 * 2 ^ 40 + c.kind * 2 ^ 38
        + c.k % 32 * 2 ^ 33 + c.nb.toNat * 2 ^ 32 }
  let (s, h) := s.record (dieOfCore k) r conts
    { pend := true, counted := true, agent := 2, core := k, unit := c.id, code := e.code, gref := c.iss.gref }
  (s.onCopy k c.id (fun c => { c with pend := true, handle := BitVec.ofNat 32 h, hdie := dieOfCore k })).cpyc k c 1

/-- The checked destinations of a block. -/
def State.blockDst (s : State) (k : Nat) (g : Group) (c : Copy) (target : Option (Nat × Nat)) (lo : Nat) (xs : List (Byte × Bool)) :
    Except AccErr (List PByte) :=
  (xs.zip (List.range xs.length)).mapM (fun x => do
    let p := c.dst (lo + x.2)
    let b ← s.copyByte k g c target true p
    if s.cursorReserved b x.1.1 then throw { code := 0x18, addr := p.2 }
    pure b)

/-- What an engine's reads of a block change (R56, R85): requests leave for other devices, tiles read through a window are promoted, and
the promotions' status bits go to the issuing team. -/
def State.engineReads (s : State) (k : Nat) (i : Issuer) (bs : List PByte) : State :=
  let r := (s.outTouch i.tenant i.cls bs).promoteFor bs
  r.1.lateStat k i r.2

/-- The place of the first destination byte of a copy in flight, outside .s. -/
def State.firstByte (s : State) (k : Nat) (c : Copy) : Option PByte :=
  if c.dsp then none else (s.copyPlace k ((s.core k).group c.iss.grp) c true (c.dst 0)).toOption.map Prod.fst

/-- TLB entries that the translations of a block passed over are dropped (R341). -/
def State.engineTlb (s : State) (k : Nat) (g : Group) (c : Copy) (wr : Bool) (ps : List (Bool × Nat)) : State :=
  let vas := ((ps.filter (fun p => !p.1)).map (fun p => p.2 / 65536)).dedup
  vas.foldl (fun s p => match s.copyPlace k g c wr (false, p * 65536) with
    | .ok (_, e) => s.dropPassed k c.iss.tenant (p * 65536) e
    | .error _ => s) s

/-- The places that a block of stream bytes [lo, hi) names: its sources and its destinations. -/
def State.blockPlaces (s : State) (k : Nat) (g : Group) (c : Copy) (lo hi : Nat) : List (Bool × Nat) × List (Bool × Nat) :=
  let ns := (List.range (hi - lo)).map (lo + ·)
  (ns.filterMap (fun n => match s.copySrc k g c n with | .ok (.inr p) => some p | _ => none), ns.map c.dst)

/-- Whether a block of a copy leaves the window in which its first destination byte lies, or the memory outside every window (R291). What
could not be translated at issue is tested when it is written, which is the model's choice (log 132). -/
def State.strays (s : State) (k : Nat) (c : Copy) (bs : List PByte) : Bool :=
  match s.firstByte k c with
  | none => false
  | some b => bs.any (fun x => x.window != b.window)

/-- A block of copy `c` performed (R290): the state, or the fault at which the copy stops. `dst`: the run of tiles written; of a record
that ends in a later block, nothing has landed yet (R354). -/
def State.runBlock (s : State) (k : Nat) (c : Copy) : Except AccErr State := do
  let g := (s.core k).group c.iss.grp
  let lo := c.prog
  let hi := min c.total (lo + 256)
  let target := s.copyTarget k c (s.firstByte k c)
  if target.isNone then throw { code := 0x18, addr := (c.dst 0).2 }
  let src ← if c.kind = 0 ∧ !c.ssp then s.tileRun c target k c.sa.toNat false else pure none
  let dst ← if c.kind = 0 ∧ !c.dsp then s.tileRun c target k c.sd.toNat true else pure none
  match src, dst with
  | some a, some b => if a.code ≠ b.code then throw { code := 0x16, addr := c.sd.toNat }
  | _, _ => pure ()
  let (xs, left, read) ← s.blockSrc k g c target src lo hi
  let places := s.blockPlaces k g c lo hi
  let stray : AccErr := { code := 0x21, addr := (c.dst lo).2 }
  let (s, landed) ← match dst with
    | some t =>
      let all := c.dstBuf ++ xs
      let size := payloadBytes t.code + 16
      let n := all.length / size
      let r := (lo - c.dstBuf.length) / size
      if s.strays k c (t.bytes r (r + n)) then throw stray
      if s.recordsReserved t r n all then throw { code := 0x18, addr := (c.dst lo).2 }
      let s := (s.engineReads k c.iss read).outTouch c.iss.tenant c.iss.cls (t.bytes r (r + n))
      pure ((s.putRecords k t n r all).onCopy k c.id (fun c => { c with dstBuf := all.drop (n * size) }), n * size)
    | none => do
      let bs ← s.blockDst k g c target lo xs
      if s.strays k c bs then throw stray
      let s := (s.engineReads k c.iss read).outTouch c.iss.tenant c.iss.cls bs
      pure (s.engineWrite k bs (xs.map Prod.fst) (xs.map Prod.snd), hi - lo)
  let s := (s.engineTlb k g c false places.1).engineTlb k g c true places.2
  let s := s.onCopy k c.id (fun c => { c with prog := hi, srcBuf := left })
  pure (match target with
    | some (j, h) => if c.nb then s else s.landBytes j h c landed
    | none => s)

/-- A guard entry that a copy into another core's scratchpad takes when its command reaches that core (R246): none while that
core's entries are full. -/
def State.reachCore (s : State) (k : Nat) (c : Copy) : Option (State × Copy) :=
  if c.gent.isSome ∨ c.prog ≠ 0 then some (s, c)
  else
    match s.coverOf (s.dstBytes k ((s.core k).group c.iss.grp) c) with
    | none => some (s, c)
    | some (j, lo, hi) =>
      let bar := match s.copyTarget k c ((s.dstBytes k ((s.core k).group c.iss.grp) c).head?) with
        | some (tj, th) => ((s.core tj).group th).bbase + c.k
        | none => c.k
      (s.takeGuard j lo hi k c bar).map (fun (s, i) =>
        let c := { c with gcore := some j, gent := some i }
        (s.onCopy k c.id (fun _ => c), c))

/-- Whether the index list of a gather lies under another copy's guard entry (R246, R289). -/
def State.indexGuarded (s : State) (k : Nat) (c : Copy) : Bool :=
  c.kind == 2 &&
    let g := (s.core k).group c.iss.grp
    let lo := g.base + gIdx c.d1 + 4 * (c.prog / gRowb c.d1)
    let hi := g.base + gIdx c.d1 + 4 * ((min c.total (c.prog + 256) + gRowb c.d1 - 1) / gRowb c.d1)
    (s.core k).tabs.guard.any (fun e => e.2.v && decide (¬(c.gcore = some k ∧ c.gent = some e.1))
      && decide (e.2.base < hi ∧ lo < e.2.last))

/-- Whether a copy has one of the four channels of its engine (R10): the four oldest have them, one stopped at a fault too, which is the
model's choice (log 6). -/
def Core.hasChannel (x : Core) (id : Nat) : Bool := ((x.copies.filter (fun c => c.kind != 3)).take 4).any (fun c => c.id == id)

/-- Whether the copy engine of a core may do its next block of a copy: with a channel (R10), not while the core clock, which drives it,
stands (R12, R13), nor before what the copy follows (R246, R266). -/
def State.blockFree (s : State) (k : Nat) (c : Copy) : Bool :=
  c.kind != 3 && !c.pend && (s.core k).hasChannel c.id && (s.die (dieOfCore k)).clk.relock.isNone && !s.indexGuarded k c && !s.earlierHeld k c.iss

/-- COPY_BLOCK (R290 to R292): the next block of a copy in flight. -/
def execCopyBlock (core id : Nat) (s : State) : Out :=
  onRunning core s (
    match (s.core core).copies.find? (fun c => c.id == id) with
    | none => s
    | some c =>
      if !s.blockFree core c then s
      else
        match s.reachCore core c with
        | none => s
        | some (s, c) =>
          match s.runBlock core c with
          | .error e => s.copyFault core c e
          | .ok s =>
            match (s.core core).copies.find? (fun x => x.id == id) with
            | some c => if c.total ≤ c.prog then s.retireCopy core c 0 else s
            | none => s)

/-! Collectives (R293 to R295, R416, R418). -/

/-- The context entry of a collective (R416). -/
def State.ctxOf (s : State) (k : Nat) : Nat := (Tbl.get 0 s.io.ctxs k).toNat
def Copy.ctx (c : Copy) : Nat := natBits c.sb.toNat 40 8
def Copy.head (c : Copy) : Nat := natBits c.sb.toNat 32 8
def Copy.count (c : Copy) : Nat := natBits c.sb.toNat 0 32

/-- Elements of a collective: rows of D + 2 values under .merge (R293). -/
def Copy.elems (c : Copy) : Nat := if c.op = 3 then c.count * (c.head + 2) else c.count

/-- The collective engine that a context's commands go to (R7, R416). -/
def State.ctxEngine (s : State) (k : Nat) : Nat := s.ctxOf k % 2

/-- The leaf of every page that a range touches, or its faults (R293). -/
def State.pageChecks (s : State) (a n : Nat) (wr : Bool) : List (Except AccErr (Nat × Nat)) :=
  (List.range ((a % 65536 + n + 65535) / 65536)).map (fun i =>
    let va := if i = 0 then a % 2 ^ 64 else (a / 65536 + i) * 65536 % 2 ^ 64
    atAddr va (do
      let e ← s.translate s.ck s.tm.id.tenant va (!wr) wr false
      let b := s.pbyte e va
      if pteFmt e = 0 && !s.exists_ b then throw { code := 0x13 }
      if !(windowOk false wr (s.region b)) then throw { code := 0x18 }
      if pteFmt e ≠ 0 then throw { code := 0x16 }
      pure (va / 65536, e)))

/-- The operands of a COLL. -/
def collOps (o : FmtA) (s : State) : Copy :=
  { kind := 3, sd := s.rs o.d.toNat, sa := s.rs o.a.toNat, sb := s.rs o.b.toNat, op := o.c.toNat % 4, ty := o.ty.toNat
    nrm := o.c.getLsbD 2, nb := true }

/-- The fault of ranges of pages (R104, R293): a reserved code that any page meets, else that of the first page, translation faults with
all their pages. -/
def rangeFault (ls : List Nat) (bad : List AccErr) : FaultReq :=
  match bad.filter (·.reserved) ++ bad with
  | [] => { code := 0 }
  | e :: _ =>
    let drops := ((bad.filter (·.walked)).map (·.page)).dedup
    { (if e.code = 0x12 then laneFault (bad.flatMap (fun e => ls.map (fun l => (l, e)))) (maskOf ls) else uniformFault ls e) with drops }

/-- COLL (R293): a fault of either range is raised at issue. -/
def execColl (h : Head) (o : FmtA) (s : State) : Out :=
  s.engineIssue (.coll h o) h.guard (collOps o) (fun c s => do
    let w := tyWidth o.ty.toNat / 8
    let n := c.elems * w
    let a := c.sa.toNat
    let d := c.sd.toNat
    let x := s.ctxOf c.ctx
    failIf (natBits c.sb.toNat 48 16 != 0 || c.count == 0 || (if c.op = 3 then c.head == 0 else c.head != 0) || (c.nrm && c.op != 3)
      || a % w != 0 || d % w != 0 || !(a == d || decide (a + n ≤ d) || decide (d + n ≤ a))
      || !x.testBit 255 || natBits x 247 8 != s.tm.id.tenant) copyOp
    let ls := s.lanesNow h.guard
    let checks := s.pageChecks a n false ++ s.pageChecks d n true
    let bad := checks.filterMap (fun r => match r with | .error e => some e | .ok _ => none)
    let leaves := checks.filterMap (fun r => match r with | .ok p => some p | .error _ => none)
    failIf (!bad.isEmpty) (rangeFault ls bad)
    let s := (leaves.foldl (fun s e => s.noteTlb s.ck s.tm.id.tenant (e.1 * 65536) e.2) s).resetSpin.emitTm 0x0C (3 * 2 ^ 62 + d % 2 ^ 32) false
    let c := { c with iss := s.issuer, total := n, leaves := leaves, since := s.seq, eng := s.ctxEngine c.ctx }
    pure (s.onCore s.ck (fun x => { x with copies := x.copies ++ [{ c with id := x.nextCopy }], nextCopy := x.nextCopy + 1 })))

/-- The place of a byte of a collective's range, under the leaves of its issue. -/
def State.collByte (s : State) (c : Copy) (va : Nat) : Option PByte :=
  (c.leaves.find? (fun e => e.1 == va / 65536)).map (fun e => s.pbyte e.2 va)

/-- Source element `i` of this device, and whether it arrives uncorrectable. -/
def State.collElem (s : State) (c : Copy) (i : Nat) : Nat × Bool :=
  let w := tyWidth c.ty / 8
  let r := (List.range w).map (fun j => match s.collByte c (c.sa.toNat + i * w + j) with
    | some b => s.homeByte b
    | none => (0, false))
  (leNat (r.map Prod.fst), r.any Prod.snd)

/-- The member devices of a context (R416). -/
def State.ctxMembers (s : State) (k : Nat) : List Nat :=
  let x := s.ctxOf k
  (List.range (natBits x 239 8 + 1)).map (fun r => (s.mem.byte (natBits x 120 40 * 4096 + r)).toNat)

/-- The digest that a collective carries at matching (R416). -/
def State.ctxDigest (s : State) (k : Nat) : Word :=
  let x := s.ctxOf k
  Config.ctxDigest ([natBits x 239 8, natBits x 228 3, natBits x 160 64] ++ s.ctxMembers k)

/-- A record of the collective engine (R295, R378). -/
def State.collRecord (s : State) (k code : Nat) (c : Copy) (dev : Nat) : State :=
  let (a, b) := (s.team k c.iss.slot).tops
  let r : RecHead :=
    { gref := c.iss.gref, rtop := a, rnext := b, code, agent := 4, tenant := c.iss.tenant, core := k, tslot := c.iss.slot
      body := c.ctx * 2 ^ 248 + c.op * 2 ^ 246 + dev % 256 * 2 ^ 238 }
  (s.record (dieOfCore k) r [] { agent := 4, core := k, unit := c.id, code, gref := c.iss.gref }).1

/-- Whether a COLL that names the same context was issued before and is still without its match (R295). -/
def State.earlierColl (s : State) (c : Copy) : Bool :=
  s.cores.any (fun k => k.2.copies.any (fun x => x.kind == 3 && !x.matched && x.ctx == c.ctx && decide (x.since < c.since)))

/-- The places of a collective's source, and of its destination. -/
def State.collBytes (s : State) (c : Copy) (a : Nat) : List PByte := (List.range c.total).filterMap (fun n => s.collByte c (a + n))

/-- A range-guard entry that a collective into a scratchpad takes when its command reaches that core (R246): none while that core's
entries are full. -/
def State.collGuard (s : State) (k : Nat) (c : Copy) : Option State :=
  match s.coverOf (s.collBytes c c.sd.toNat) with
  | none => some s
  | some (j, lo, hi) =>
    (s.takeGuard j lo hi k c 0).map (fun (s, i) => s.onCopy k c.id (fun x => { x with gcore := some j, gent := some i }))

/-- Whether a collective may not go on yet: a copy other than itself is in flight over its source (R246), or its issue, which is a
release, has accesses of its team held before it (R267). -/
def State.collWaits (s : State) (k : Nat) (c : Copy) : Bool :=
  s.earlierHeld k c.iss
  || (s.collBytes c c.sa.toNat).any (fun b => (s.guardsAt b).any (fun g => g.2.2.1 != k || g.2.2.2 != c.id))

/-- A collective ends and its flag falls: an acquire at DOMAIN (R267). -/
def State.retireColl (s : State) (k : Nat) (c : Copy) (outcome : Nat) : State := (s.retireCopy k c outcome).l1Acquire k 6 false

/-- A matched collective's data leaves for the other members on VC 4, with tenant and class (R412, R419). -/
def State.sendColl (s : State) (c : Copy) : State :=
  ((s.ctxMembers c.ctx).filter (fun d => d != s.io.domidx)).foldl (fun s d =>
    s.sendOn { vc := 4, dev := d, tenant := c.iss.tenant, cls := c.iss.cls }) s

/-- COLL_MATCH (R295, R416): commands that differ complete with their destinations unchanged; those of one context are matched in the
order of their issue. -/
def execCollMatch (core id : Nat) (peers : List CollPeer) (s : State) : Out :=
  onRunning core s (
    match (s.core core).copies.find? (fun c => c.id == id && c.kind == 3 && !c.matched) with
    | none => s
    | some c =>
      if s.earlierColl c || s.collWaits core c then s else
      match peers.find? (fun p => p.abandoned) with
      | some p => (s.collRecord core 0x23 c p.dev).retireColl core c 5
      | none =>
        let dig := s.ctxDigest c.ctx
        match peers.find? (fun p =>
            p.op != c.op || p.ty != c.ty || p.count != c.count || p.d != c.head || p.digest != dig) with
        | some p => (s.collRecord core 0x22 c p.dev).retireColl core c 4
        | none =>
          match s.collGuard core c with
          | none => s
          | some s => (s.sendColl c).onCopy core id (fun c => { c with matched := true }))

/-- Status bits together. -/
def orAll (xs : List Nat) : Nat := xs.foldl (fun a x => a ||| x) 0

/-- One row of MERGE (R418): (m, l, o …) of every member to the combined row, and the status bits. -/
def mergeRow (nrm : Bool) (d : Nat) (rows : List (List Nat)) : List Nat × Nat :=
  let ms := rows.map (fun r => decodeFp 0x10 (r.getD 0 0))
  if ms.any (fun m => m.isNan || m == .inf false) then (List.replicate (d + 2) (nanPat 0x10), stNV)
  else
    let live := rows.filter (fun r => decodeFp 0x10 (r.getD 0 0) != .inf true)
    match live with
    | [] => ((infPat 0x10 + 2 ^ 31) :: List.replicate (d + 1) 0, 0)
    | r0 :: rest =>
      let m := rest.foldl (fun m r => (minMaxFp 0x10 true m (r.getD 0 0)).1) (r0.getD 0 0)
      let ws := rows.map (fun r =>
        match decodeFp 0x10 (r.getD 0 0) with
        | .inf _ => ((.fin false 0 0 : Fl), 0)
        | x =>
          match (sumFl [x, (decodeFp 0x10 m).neg]).1 with
          | .fin n mm e => let (p, f) := roundFp 0x10 false false (exp2Fin n mm e); (decodeFp 0x10 p, f)
          | _ => (.fin false 0 0, 0))
      let comb := fun (j : Nat) =>
        let ps := (ws.zip rows).map (fun wr => mulFl wr.1.1 (decodeFp 0x10 (wr.2.getD j 0)))
        let sg := sigNV (rows.map (fun r => decodeFp 0x10 (r.getD j 0)))
        let (v, f) := sumFl (ps.map Prod.fst)
        let (p, g) := roundFp 0x10 false false v
        (p, f ||| g ||| sg ||| orAll (ps.map Prod.snd))
      let (l, fl) := comb 1
      let os := (List.range d).map (fun k =>
        let (p, f) := comb (k + 2)
        if !nrm then (p, f)
        else if (decodeFp 0x10 l).isZero then (0, f)
        else
          let (q, g) := divFl (decodeFp 0x10 p) (decodeFp 0x10 l)
          let (r, g2) := roundFp 0x10 false false q
          (r, f ||| g ||| g2))
      (m :: l :: os.map Prod.fst, fl ||| orAll (os.map Prod.snd) ||| orAll (ws.map Prod.snd))

/-- One element of .sum, .max or .min over all members (R294). -/
def combineElem (op ty : Nat) (xs : List Nat) : Nat × Nat :=
  let w := tyWidth ty
  let sg := isSigned ty
  if isFp ty then
    if op = 0 then
      let vs := xs.map (decodeFp ty)
      let (v, f) := sumFl vs
      let (p, g) := roundFp ty false false v
      (p, f ||| g ||| sigNV vs)
    else match xs with
      | [] => (0, 0)
      | x :: rest => rest.foldl (fun (a : Nat × Nat) y => ((minMaxFp ty (op == 1) a.1 y).1, a.2 ||| (minMaxFp ty (op == 1) a.1 y).2)) (x, 0)
  else if op = 0 then (xs.foldl (fun a x => (a + x) % 2 ^ w) 0, 0)
  else match xs with
    | [] => (0, 0)
    | x :: rest => (rest.foldl (fun a y =>
        if op = 1 then (if toInt sg w a < toInt sg w y then y else a) else (if toInt sg w y < toInt sg w a then y else a)) x, 0)

/-- The results of a collective over this device's elements and those of the peers: elements and status bits (R294, R418). -/
def collResult (c : Copy) (own : List Nat) (peers : List CollPeer) : List Nat × Nat :=
  let all := own :: peers.map (fun p => p.data.map (fun x => x.toNat % 2 ^ tyWidth c.ty))
  if c.op = 3 then
    let d := c.head
    let rs := (List.range c.count).map (fun r => mergeRow c.nrm d (all.map (fun xs => (xs.drop (r * (d + 2))).take (d + 2))))
    (rs.flatMap Prod.fst, orAll (rs.map Prod.snd))
  else
    let rs := (List.range c.count).map (fun i => combineElem c.op c.ty (all.map (fun xs => xs.getD i 0)))
    (rs.map Prod.fst, orAll (rs.map Prod.snd))

/-- COLL_COMPLETION (R294): the result lands here, past every L1 (R240), and the flag falls. -/
def execCollCompletion (core id : Nat) (peers : List CollPeer) (s : State) : Out :=
  onRunning core s (
    match (s.core core).copies.find? (fun c => c.id == id && c.kind == 3 && c.matched) with
    | none => s
    | some c =>
      if s.collWaits core c then s else
      let w := tyWidth c.ty / 8
      let own := (List.range c.elems).map (s.collElem c)
      let (xs, f) := collResult c (own.map Prod.fst) peers
      let bytes := (xs.zip (List.range xs.length)).flatMap (fun x =>
        (List.range w).filterMap (fun j =>
          (s.collByte c (c.sd.toNat + x.2 * w + j)).map (fun b => (b, byteAt x.1 j, (own.getD x.2 (0, false)).2))))
      let s := (s.engineReads core c.iss (s.collBytes c c.sa.toNat)).outTouch c.iss.tenant c.iss.cls (bytes.map Prod.fst)
      let s := s.putBytes (bytes.map Prod.fst) (bytes.map (fun b => b.2.1)) (bytes.map (fun b => b.2.2))
      (s.lateStat core c.iss f).retireColl core { c with prog := c.total } 0)

end Sys2Proof.Machine
end

