-- ==== Sys2Proof/Machine/Matrix.lean ====
section
/-! DEFINITION. The matrix array: weight buffer, crossing FIFO, accumulator tiles and drains (09 R200 to R228). -/

namespace Sys2Proof.Machine

/-- The matrix-operand fault, and the invalid-slot fault with a slot's WBSTAT bits (R379). -/
def matrixOp : FaultReq := faultOf 0x1F
def WSlot.stat (w : WSlot) : Nat := w.load.toNat * 8 + w.valid.toNat * 4 + w.spar % 4
def invalidSlot (n : Nat) (w : WSlot) : FaultReq := faultOf 0x1E 0 0 (n % 8 + w.stat * 8)
def Core.slot (c : Core) (n : Nat) : WSlot := Tbl.get {} c.mat.slots n
def State.onSlot (s : State) (k n : Nat) (f : WSlot → WSlot) : State :=
  s.onMat k (fun m => { m with slots := Tbl.upd {} m.slots n f })

/-! Issue (R203, R207). -/

/-- What every matrix-range issue checks before its own faults: the stack (R34). -/
def State.matrixPre (s : State) : Except FaultReq Unit :=
  failIf (!s.tm.path.stack.isEmpty) (faultOf 0x03 0 0 s.tm.path.stack.length)

/-- A command put into the crossing FIFO; a command with an effect resets the spin count (R35). -/
def State.pushMat (s : State) (op : MatOp) (word : Word := 0) : State :=
  let iss := { s.issuer with word := word }
  (if op = .none_ then s else s.resetSpin).onMat s.ck (fun m => { m with fifo := m.fifo ++ [{ op, iss }] })

/-- The body of a team-uniform matrix instruction: without a lane served its entry carries no effect (R94, R203). -/
def matBody (g : BitVec 4) (act : State → Except FaultReq State) : Body := fun s => do
  s.matrixPre
  if s.servedNow g = 0 then pure (s.pushMat .none_) else act s

/-- Slot limits of a load word (R208). -/
def nbLimit (code sp : Nat) : Nat := (if code ≤ 3 then 128 else if code ≤ 6 then 64 else 32) * (if sp = 0 then 1 else 2)

/-- WBLD (R208, R212). -/
def execWbld (h : Head) (o : FmtA) (s : State) : Out :=
  .next (s.issue (.wbld h o) false false (matBody h.guard (fun s => do
    let a := s.rs o.a.toNat
    let b := s.rs o.b.toNat
    let c := s.rs o.c.toNat
    let x := c.toNat
    let n := o.d.toNat % 8
    let code := natBits x 0 4
    let sp := natBits x 4 2
    failIf (decide (9 ≤ code)) (faultOf 0x04 0 0 code)
    failIf (code == 0 || sp == 3 || natBits x 6 2 != 0 || decide (x / 2 ^ 17 ≠ 0) || natBits x 8 9 == 0
      || decide (nbLimit code sp < natBits x 8 9) || a.toNat % 256 != 0 || b.toNat % 256 != 0) matrixOp
    pure ((s.onSlot s.ck n (fun w => { w with load := true })).pushMat (.wbld n a b c)))))

/-- WBINV (R213). -/
def execWbinv (h : Head) (o : FmtA) (s : State) : Out :=
  .next (s.issue (.wbinv h o) false false (matBody h.guard (fun s => do
    let n := o.d.toNat % 8
    pure ((s.onSlot s.ck n (fun w => { w with valid := false })).pushMat (.wbinv n)))))

/-- AZERO (R216). -/
def execAzero (h : Head) (o : FmtA) (s : State) : Out :=
  .next (s.issue (.azero h o) false false (matBody h.guard (fun s => pure (s.pushMat (.azero (o.d.toNat % 16))))))

/-- APROM (R216). -/
def execAprom (h : Head) (o : FmtI) (s : State) : Out :=
  .next (s.issue (.aprom h o) false false (matBody h.guard (fun s =>
    pure (s.pushMat (.aprom (o.d.toNat % 16) (o.imm.toNat % 128))))))

/-- k values that a chunk takes: 16, 8 or 4, twice that for a sparse slot (R215). -/
def spanOf (code spar : Nat) : Nat := 64 / codeWidth code * (if spar = 0 then 1 else 2)

/-- Bytes of operand A for K columns (R214). -/
def aBytes (code kk : Nat) : Nat := (kk + 15) / 16 * 4 * recordBytes code

/-- The body of MMA and MMAS (R215, R218). -/
def mmaBody (h : Head) (o : FmtA) (clear : Bool) : Body :=
  matBody h.guard (fun s => do
    let a := s.rs o.a.toNat
    let c := s.rs o.c.toNat
    let n := o.b.toNat % 8
    let w := s.cr.slot n
    let code := typeCode o.ty.toNat
    let kk := natBits c.toNat 0 16
    let k0 := natBits c.toNat 16 16
    failIf (!w.valid || w.load || codeWidth code != codeWidth w.fmt) (invalidSlot n w)
    failIf (kk == 0 || kk % spanOf code w.spar != 0 || k0 % 16 != 0 || decide (16 * w.nb < k0 + kk)
      || decide (c.toNat / 2 ^ 32 ≠ 0) || a.toNat % 16 != 0 || decide (s.grpOf.size < a.toNat + aBytes code kk)) matrixOp
    pure (s.pushMat (.mma clear o.x code (o.d.toNat % 16) n a c)))

def execMma (h : Head) (o : FmtA) (s : State) : Out := .next (s.issue (.mma h o) false false (mmaBody h o false))
def execMmas (h : Head) (o : FmtA) (s : State) : Out := .next (s.issue (.mmas h o) false false (mmaBody h o true))

/-! The drain descriptor (R221). -/
def dDst (d : BitVec 512) : Nat := recBits d 448 64
def dRes (d : BitVec 512) : Nat := recBits d 384 64
def dScale (d : BitVec 512) : Nat := recBits d 224 32
def dKscl (d : BitVec 512) : Nat := recBits d 192 32
def dThr (d : BitVec 512) : Nat := recBits d 160 32
def dStride (d : BitVec 512) : Nat := recBits d 64 32
def dRstride (d : BitVec 512) : Nat := recBits d 48 16
def dDrop (d : BitVec 512) : Bool := d.getLsbD 11
def dResf (d : BitVec 512) : Bool := d.getLsbD 10
def dRspace (d : BitVec 512) : Bool := d.getLsbD 9
def dDspace (d : BitVec 512) : Bool := d.getLsbD 8
def dAdd (d : BitVec 512) : Bool := recBits d 6 2 == 1
def dPlain (d : BitVec 512) : Bool := d.getLsbD 5
def dRelease (d : BitVec 512) : Bool := d.getLsbD 12
def dOutf (d : BitVec 512) : Nat := recBits d 0 4

/-- Element bytes of a plain output, and of a residual. -/
def dEl (d : BitVec 512) : Nat := if dOutf d = 7 then 2 else 4
def dRel (d : BitVec 512) : Nat := if dResf d then 2 else 4

/-- Whether a descriptor passes the checks that raise the matrix-operand fault (R221). -/
def drainOk (d : BitVec 512) (alloc : Nat) : Bool :=
  let e := dEl d
  let p := payloadBytes (dOutf d)
  let st := dStride d
  let dst := dDst d
  let res := dRes d
  let r := dRel d
  recBits d 16 32 == 0 && !d.getLsbD 4 && decide (recBits d 6 2 ≤ 1)
  && (if dPlain d then
        (dOutf d == 0 || dOutf d == 7) && dst % e == 0 && st % e == 0 && decide (64 * e ≤ st)
        && (!dDspace d || decide (dst + 63 * st + 64 * e ≤ alloc))
      else if dDspace d then
        dOutf d != 0 && dst % 16 == 0 && st == 0 && decide (dst + 16 * recordBytes (dOutf d) ≤ alloc)
      else dOutf d != 0 && dst % p == 0 && st % p == 0 && decide (4 * p ≤ st))
  && (res == 0 || (res % r == 0 && dRstride d % r == 0 && decide (64 * r ≤ dRstride d)
        && (!dRspace d || decide (res + 63 * dRstride d + 64 * r ≤ alloc))))

/-- ADRN (R221). -/
def execAdrn (h : Head) (o : FmtA) (s : State) : Out :=
  .next (s.issue (.adrn h o) false false (matBody h.guard (fun s => do
    let a := s.rs o.a.toNat
    let off := a.toNat
    failIf (off % 64 != 0 || decide (s.grpOf.size < off + 64)) matrixOp
    let bs := s.grpOf.sBytes s.ck off 64
    failIf (bs.any s.guarded) stall
    let r := s.seeBytes s.ck 0 bs
    failIf r.2 (poison 3 0 (lowLane s.nl (s.servedNow h.guard)) true off)
    let d := BitVec.ofNat 512 (leNat r.1)
    failIf (!dPlain d && decide (9 ≤ dOutf d)) (faultOf 0x04 0 0 (dOutf d))
    failIf (!drainOk d s.grpOf.size) matrixOp
    pure (s.pushMat (.adrn o.x (o.d.toNat % 16) a d) (wordOf (.adrn h o))))))

/-- The row word of ARD and AWR (R228). -/
def State.rowWord (s : State) (r : Nat) : Except FaultReq Nat := do
  let x := (s.rs r).toNat
  failIf (decide (64 ≤ x) || decide (64 < x % 64 + s.nl / 32)) matrixOp
  pure (x % 64)

/-- ARD (R228). -/
def execArd (h : Head) (o : FmtA) (s : State) : Out :=
  .next (s.issue (.ard h o) false false (fun s => do
    s.matrixPre
    let row ← s.rowWord o.b.toNat
    let ls := s.served h.guard
    pure (s.pushMat (if ls = 0 then .none_ else .ard (o.a.toNat % 16) o.d.toNat row ls))))

/-- AWR (R228): its vector is read at issue. -/
def execAwr (h : Head) (o : FmtA) (s : State) : Out :=
  .next (s.issue (.awr h o) false false (fun s => do
    s.matrixPre
    let row ← s.rowWord o.b.toNat
    let vs ← s.readV o.a.toNat (s.lanes h.guard)
    pure (s.pushMat (if vs.isEmpty then .none_ else .awr (o.d.toNat % 16) row vs))))

/-! What the array does. -/

/-- The completion of a matrix command at its team: status bits are set and the flag falls (R55, R89). -/
def State.finishMat (s : State) (k : Nat) (i : Issuer) (bits : Nat) : State :=
  let s := s.lateStat k i bits
  if (s.team k i.slot).id.gref = i.gref then s.onTeam k i.slot (·.complete i.fly) else s

/-- A matrix command is complete; in a relock its team sees that in the first core cycle after it (R205). -/
def State.matDone (s : State) (k : Nat) (c : MatCmd) (bits : Nat) : State :=
  if (s.die (dieOfCore k)).clk.relock.isSome then s.onMat k (fun m => { m with late := m.late ++ [(c.iss, bits)] })
  else s.finishMat k c.iss bits

/-- The completions that a relock has kept back, in the first core cycle after it (R205). -/
def State.applyLate (s : State) (k : Nat) : State :=
  (s.core k).mat.late.foldl (fun s x => s.finishMat k x.1 x.2) (s.onMat k (fun m => { m with late := [] }))

/-- Every element +0, CNT 0; P stays (R216). -/
def Tile.zero (t : Tile) : Tile := { t with img := [], part := [], pz := [], cnt := 0 }

/-- The element pair of a lane (R228). -/
def pairKey (row l : Nat) : Nat := 64 * (row + l / 32) + 2 * (l % 32)

/-- A late result of a command of a team, written as that command's (R91). -/
def State.asLate (s : State) (k : Nat) (i : Issuer) (f : State → State) : State :=
  if (s.team k i.slot).id.gref ≠ i.gref then s
  else
    let cur := s.cur
    let s := { s with cur := .team k i.slot }
    let s := s.onTm (fun t =>
      { t with fly := (t.fly.filter (fun x => x.id == i.fly)) ++ t.fly.filter (fun x => x.id != i.fly) })
    { f s with cur := cur }

/-- ARD at the array. -/
def State.runArd (s : State) (k : Nat) (c : MatCmd) (t v row : Nat) (lanes : LaneBits) : State :=
  let (tile, bits) := ((s.core k).tile t).promote
  let s := s.onTile k t (fun _ => tile)
  let cells := (lanesOf 1024 lanes).map (fun l =>
    let e := pairKey row l
    (l, ({ val := BitVec.ofNat 64 ((Tbl.get 0 tile.img e).toNat + (Tbl.get 0 tile.img (e + 1)).toNat * 2 ^ 32)
           pz := Tbl.get false tile.pz e || Tbl.get false tile.pz (e + 1) } : VCell)))
  (s.asLate k c.iss (fun s => s.wv v cells)).matDone k c bits

/-- AWR at the array. -/
def State.runAwr (s : State) (k : Nat) (c : MatCmd) (t row : Nat) (cells : List (Nat × Word)) : State :=
  let (tile, bits) := ((s.core k).tile t).promote
  let put := cells.flatMap (fun (x : Nat × Word) =>
    [(pairKey row x.1, (x.2.truncate 32 : Word32)), (pairKey row x.1 + 1, ((x.2 >>> 32).truncate 32 : Word32))])
  let tile := { tile with img := Tbl.setMany 0 tile.img put, pz := Tbl.setMany false tile.pz (put.map (fun e => (e.1, false))) }
  (s.onTile k t (fun _ => tile)).matDone k c bits

/-! Operand fetch (R214, R217). -/

/-- The tile record of operand A that holds element (i, k), and the element's place in it (R214). -/
def aPlace (tr : Bool) (i k : Nat) : Nat × Nat × Nat :=
  (4 * (k / 16) + i / 16, if tr then k % 16 else i % 16, if tr then i % 16 else k % 16)

/-- A record's payload bytes and entry bytes with their condition. -/
def recordOf (code n : Nat) (bs : List (Byte × Bool)) : List (Byte × Bool) × List (Byte × Bool) :=
  let r := (bs.drop (n * recordBytes code)).take (recordBytes code)
  (r.take (payloadBytes code), r.drop (payloadBytes code))

/-- Whether element `n` of a record arrives uncorrectable. -/
def elemBad (code n : Nat) (p e : List (Byte × Bool)) : Bool :=
  e.any Prod.snd ||
    match codeWidth code with
    | 4 => (p.getD (n / 2) (0, false)).2
    | 8 => (p.getD n (0, false)).2
    | _ => (p.getD (2 * n) (0, false)).2 || (p.getD (2 * n + 1) (0, false)).2

/-- Element (i, k) of operand A (R214, R217): its value, status bits, and whether it was poisoned. -/
def aElem (code : Nat) (tr : Bool) (recs : List (Byte × Bool)) (i k : Nat) : Fl × Nat × Bool :=
  let (n, r, c) := aPlace tr i k
  let (p, e) := recordOf code n recs
  let payload := p.map Prod.fst
  let entry := leNat (e.map Prod.fst)
  if elemBad code (16 * r + c) p e then (.fin false 0 0, stPOI, true)
  else if !tileOk payload entry then (.fin false 0 0, stMDF, false)
  else
    let (v, f, bad) := tileVal code payload entry r c
    (v, f ||| (if bad then stMDF else 0), false)

/-- Bytes of a tile record of a weight image: payload, metadata, entry (R209). -/
def wPayload (code spar : Nat) : Nat := if spar = 0 then payloadBytes code else payloadBytes code / 2
def wRecord (code spar : Nat) : Nat := wPayload code spar + (if spar = 0 then 0 else 32) + 16

/-- Bytes of a slot's stream. -/
def WSlot.bytes (w : WSlot) (lo n : Nat) : List Byte := (List.range n).map (fun i => Tbl.get 0 w.data (lo + i))

/-- Where row r of column j stands in the compressed order of a sparse tile, or none where it is not kept (R210). -/
def keptAt (spar : Nat) (metas : List Byte) (r j : Nat) : Option Nat :=
  if spar = 1 then
    let g := r / 4
    let nib := (metas.getD ((4 * j + g) / 2) 0).toNat / 16 ^ ((4 * j + g) % 2) % 16
    if nib % 4 = r % 4 then some (8 * j + 2 * g) else if nib / 4 = r % 4 then some (8 * j + 2 * g + 1) else none
  else
    let g := r / 8
    let b := (metas.getD (2 * j + g) 0).toNat
    if b.testBit (r % 8) then some (8 * j + 4 * g + ((List.range (r % 8)).filter (fun n => b.testBit n)).length) else none

/-- Element (k, j) of operand B (R209, R210, R217), or none where a sparse slot does not keep it. -/
def bElem (w : WSlot) (k j : Nat) : Option (Fl × Nat × Bool) :=
  let lo := (4 * (k / 16) + j / 16) * wRecord w.fmt w.spar
  let pb := wPayload w.fmt w.spar
  let place := if w.spar = 0 then some (16 * (k % 16) + j % 16) else keptAt w.spar (w.bytes (lo + pb) 32) (k % 16) (j % 16)
  place.map (fun n =>
    if Tbl.get false w.pz (64 * k + j) then (.fin false 0 0, stPOI, true)
    else
      let entry := leNat (w.bytes (lo + wRecord w.fmt w.spar - 16) 16)
      let (v, f, bad) := tileValAt w.fmt (w.bytes lo pb) entry n (k % 16) (j % 16)
      (v, f ||| (if bad then stMDF else 0), false))

/-- The first poisoned element of the operands in the order of R62: lowest k, row, column; operand A before B. -/
def MmaRun.firstPoison (r : MmaRun) (code : Nat) (tr : Bool) (kk k0 : Nat) : Option (Nat × Nat × Nat × Nat) :=
  (List.range kk).findSome? (fun k =>
    let a := (List.range 64).find? (fun i => (aElem code tr r.recs i k).2.2)
    let b := (List.range 64).find? (fun j => match bElem r.slot (k0 + k) j with | some x => x.2.2 | none => false)
    match a, b with
    | none, none => none
    | some i, none => some (0, i, k % 64, k)
    | none, some j => some (1, k % 64, j, k)
    | some i, some j =>
      if k % 64 < i ∨ (k % 64 = i ∧ j < k % 64) then some (1, k % 64, j, k) else some (0, i, k % 64, k))

/-- AELOG records a poisoned element while it holds none (R62). -/
def aelogWith (old : Word) (tile : Nat) (p : Option (Nat × Nat × Nat × Nat)) : Word :=
  match p with
  | none => old
  | some (op, row, col, k) =>
    if old.getLsbD 63 then old
    else BitVec.ofNat 64 (2 ^ 63 + op * 2 ^ 62 + tile % 16 * 2 ^ 58 + row % 64 * 2 ^ 52 + col % 64 * 2 ^ 46 + k % 2 ^ 16 * 2 ^ 30)

/-- A matrix command with the core's group of its issuer. -/
def State.matGroup (s : State) (k : Nat) (i : Issuer) : Group := (s.core k).group i.grp

/-- The operands of an MMA fetched (R204, R217, R219). -/
def State.fetchMma (s : State) (k : Nat) (c : MatCmd) (code w : Nat) (tr : Bool) (t : Nat) (a x : Word) : State :=
  let kk := natBits x.toNat 0 16
  let k0 := natBits x.toNat 16 16
  let recs := ((s.matGroup k c.iss).sBytes k a.toNat (aBytes code kk)).map s.homeByte
  let run : MmaRun := { cmd := c, recs, slot := (s.core k).slot w }
  let log := aelogWith (s.core k).mat.aelog t (run.firstPoison code tr kk k0)
  s.onMat k (fun m => { m with mmas := m.mmas ++ [run], aelog := log })

/-- Whether the scratchpad bytes of operand A are under a copy in flight (R219, R246). -/
def State.mmaHeld (s : State) (k : Nat) (c : MatCmd) (code : Nat) (a x : Word) : Bool :=
  ((s.matGroup k c.iss).sBytes k a.toNat (aBytes code (natBits x.toNat 0 16))).any s.guarded

/-- FIFO_HEAD_LEAVE (R203, R204): the head leaves for the weight-buffer engine at once, for the tile control when every earlier
command is done, for the array when earlier drains are done. -/
def execFifoHeadLeave (core : Nat) (s : State) : Out :=
  onRunning core s (
    let m := (s.core core).mat
    match m.fifo with
    | [] => s
    | c :: rest =>
      let free := m.mmas.isEmpty && m.drain.isNone
      let go := s.onMat core (fun m => { m with fifo := rest })
      match c.op with
      | .none_ => go.matDone core c 0
      | .wbld .. => go.onMat core (fun m => { m with loads := m.loads ++ [c] })
      | .wbinv _ => go.matDone core c 0
      | .azero t => if free then (go.onTile core t Tile.zero).matDone core c 0 else s
      | .aprom t p =>
        if free then
          let (tile, bits) := ((s.core core).tile t).promote
          (go.onTile core t (fun _ => { tile with p := p, cnt := 0 })).matDone core c bits
        else s
      | .ard t v row lanes => if free then go.runArd core c t v row lanes else s
      | .awr t row cells => if free then go.runAwr core c t row cells else s
      | .adrn .. => if free then go.onMat core (fun m => { m with drain := some { cmd := c } }) else s
      | .mma _ tr code t w a x =>
        if m.drain.isSome || s.mmaHeld core c code a x then s else go.fetchMma core c code w tr t a x)

/-- One chunk of an MMA on a tile (R215): the tile and the status bits. -/
def chunkTile (run : MmaRun) (code : Nat) (tr : Bool) (k0 span : Nat) (t : Tile) : Tile × Nat :=
  let ks := (List.range span).map (fun n => run.chunks * span + n)
  let av := ks.map (fun k => (List.range 64).map (fun i => aElem code tr run.recs i k))
  let bv := ks.map (fun k => (List.range 64).map (fun j => bElem run.slot (k0 + k) j))
  let f0 := orAll (av.flatMap (fun l => l.map (fun x => x.2.1)) ++ bv.flatMap (fun l => l.map (fun x => (x.elim 0 (·.2.1)))))
  let cells : List (Nat × BitVec 26 × Nat) := (List.range 4096).map (fun e =>
    let i := e / 64
    let j := e % 64
    let prods := (av.zip bv).filterMap (fun ab =>
      match ab.1[i]?, (ab.2[j]?).join with
      | some x, some y => some (mulFl x.1 y.1)
      | _, _ => none)
    let (v, f) := chunkSum (decodeFp 0x15 (Tbl.get 0 t.part e).toNat :: prods.map Prod.fst) (prods.any (fun p => p.2 != 0))
    (e, BitVec.ofNat 26 v, f))
  let part : Tbl (BitVec 26) := (cells.filter (fun c => c.2.1 != 0)).map (fun c => (c.1, c.2.1))
  let t : Tile := { t with part := part, cnt := t.cnt + 1 }
  let f := f0 ||| orAll (cells.map (fun c => c.2.2))
  if t.cnt = t.p then ((t.promote).1, f ||| (t.promote).2) else (t, f)

/-- MMA_CHUNK (R215): the array performs the next chunk of the oldest MMA in it. Under a freeze it ends the command in progress and starts
none (14 R322). -/
def execMmaChunk (core : Nat) (s : State) : Out :=
  onUnit "core" core 192 (
    match (s.core core).mat.mmas with
    | [] => s
    | run :: rest =>
      if s.stopped core && run.chunks == 0 then s else
      match run.cmd.op with
      | .mma clear tr code t _ _ x =>
        let kk := natBits x.toNat 0 16
        let k0 := natBits x.toNat 16 16
        let span := spanOf code run.slot.spar
        let tile := (s.core core).tile t
        let tile := if clear && run.chunks == 0 then tile.zero else tile
        let (tile, bits) := chunkTile run code tr k0 span tile
        let run := { run with chunks := run.chunks + 1, stat := run.stat ||| bits }
        let s := (s.onTile core t (fun _ => tile)).count core 9 run.cmd.iss.tenant 1
        if kk ≤ run.chunks * span then (s.onMat core (fun m => { m with mmas := rest })).matDone core run.cmd run.stat
        else s.onMat core (fun m => { m with mmas := run :: rest })
      | _ => s)

/-! Loading the weight buffer (R209 to R212). -/

/-- Where the 256 bytes of a chunk lie, or why they cannot be reached. -/
def State.chunkPlaces (s : State) (tenant k va : Nat) : Except AccErr (List PByte) :=
  (List.range 256).mapM (fun i => do
    let a := (va + i) % 2 ^ 64
    let e ← s.translate k tenant a true false false
    let b := s.pbyte e a
    if pteFmt e ≠ 0 || !s.exists_ b || !windowOk false false (s.region b) then throw ({ code := 0x12, reason := 0 } : AccErr)
    pure b)

/-- A chunk as read: its bytes and whether any is uncorrectable, or none when a read does not translate. A page whose entry carries a
reserved format code counts as one that does not, which is the model's choice (log 50). -/
def State.readChunk (s : State) (tenant k va : Nat) : Option (List Byte × Bool) :=
  match s.chunkPlaces tenant k va with
  | .error _ => none
  | .ok bs => let r := bs.map s.homeByte; some (r.map Prod.fst, r.any Prod.snd)

/-- The reason for which one metadata byte at its place fails, or none (R210). -/
def metaFail (spar : Nat) (b : Byte) : Option Nat :=
  let one := fun (n : Nat) => if n % 4 = n / 4 then some 1 else if n / 4 < n % 4 then some 2 else none
  if spar = 1 then (one (b.toNat % 16)).orElse (fun _ => one (b.toNat / 16))
  else if ((List.range 8).filter (fun n => b.toNat.testBit n)).length = 4 then none else some 2

/-- Why chunk `c` fails (R211), the lowest reason that holds; `done`: the stream of the chunks before it. -/
def chunkFail (code spar tiles c : Nat) (done : List Byte) (x : List Byte × Bool) : Option Nat :=
  let lo := 252 * c
  let str := done ++ x.1.take 252
  let rec_ := wRecord code spar
  let pb := wPayload code spar
  let poss := (List.range 252).map (fun i => lo + i)
  let metas := if spar = 0 then [] else poss.filterMap (fun p =>
    if p / rec_ < tiles ∧ pb ≤ p % rec_ ∧ p % rec_ < pb + 32 then metaFail spar (str.getD p 0) else none)
  let ends := poss.filter (fun p => decide (p / rec_ < tiles) && p % rec_ == rec_ - 1)
  let bad := ends.any (fun p =>
    let r := (str.drop (p / rec_ * rec_)).take rec_
    !tileOk (r.take pb) (leNat (r.drop (rec_ - 16))))
  if leNat (x.1.drop 252) ≠ crc32c (x.1.take 252) then some 0
  else if metas.contains 1 then some 1
  else if metas.contains 2 then some 2
  else if bad then some 3
  else if x.2 then some 4 else none

/-- One chunk with its second fetch and its replica (R211): the bytes, or the reason of the failure. -/
def State.loadChunk (s : State) (tenant k a rep code spar tiles c : Nat) (done : List Byte) : Except Nat (List Byte) :=
  let try_ := fun (s : State) (va : Nat) =>
    match s.readChunk tenant k (va + 256 * c) with
    | none => (Except.error 5 : Except Nat (List Byte))
    | some x => match chunkFail code spar tiles c done x with | none => .ok (x.1.take 252) | some r => .error r
  match try_ s a with
  | .ok b => .ok b
  | .error 5 => .error 5
  | .error _ =>
    match try_ { s with seq := s.seq + 1 } a with
    | .ok b => .ok b
    | .error r => if rep = 0 ∨ r = 5 then .error r else try_ { s with seq := s.seq + 2 } rep

/-- The chunks of an image in order: its stream, or the chunk that failed and the reason. -/
def State.loadImage (s : State) (tenant k a rep code spar tiles : Nat) : List Nat → List Byte → Except (Nat × Nat) (List Byte)
  | [], done => .ok done
  | c :: cs, done =>
    match s.loadChunk tenant k a rep code spar tiles c done with
    | .error r => .error (c, r)
    | .ok b => State.loadImage s tenant k a rep code spar tiles cs (done ++ b)

/-- The tables of the bytes of a stream. -/
def byteTable (bs : List Byte) : Tbl Byte := (((List.range bs.length).zip bs).filter (fun e => e.2 != 0))

/-- A record of the weight-buffer engine (R211, R378). -/
def State.wbRecord (s : State) (k : Nat) (c : MatCmd) (n a chunk reason : Nat) : State :=
  let (x, y) := (s.team k c.iss.slot).tops
  let r : RecHead :=
    { gref := c.iss.gref, rtop := x, rnext := y, code := 0x20, agent := 3, tenant := c.iss.tenant, core := k, tslot := c.iss.slot
      body := a * 2 ^ 192 + (a + 256 * chunk) % 2 ^ 64 * 2 ^ 128 + chunk * 2 ^ 96 + n * 2 ^ 92 + reason * 2 ^ 88 }
  (s.record (dieOfCore k) r [] { agent := 3, core := k, unit := n, code := 0x20, gref := c.iss.gref }).1

/-- The chunks of an image and of its replica. -/
def imageChunks (a rep n : Nat) : List Nat :=
  (List.range n).map (fun c => a + 256 * c) ++ (if rep = 0 then [] else (List.range n).map (fun c => rep + 256 * c))

/-- Whether the image of a WBLD lies under a copy in flight, for which its reads wait (R246). -/
def State.imageGuarded (s : State) (tenant k : Nat) (vas : List Nat) : Bool :=
  s.cores.any (fun c => c.2.tabs.guard.any (·.2.v)) &&
    vas.any (fun va => match s.chunkPlaces tenant k va with | .ok bs => bs.any s.guarded | .error _ => false)

/-- What the reads of an image leave: requests to the host and other devices (R405, R414), and TLB entries dropped that were passed over
or did not serve (R341). -/
def State.imageTouch (s : State) (i : Issuer) (k : Nat) (vas : List Nat) : State :=
  let far := vas.flatMap (fun va => match s.chunkPlaces i.tenant k va with
    | .ok bs => bs.filter (fun b => b.dev.isSome || (s.region b).forcesSo)
    | .error _ => [])
  let s := ((vas.map (· / 65536)).dedup).foldl (fun s p => match s.translate k i.tenant (p * 65536) true false false with
    | .ok e => s.dropPassed k i.tenant (p * 65536) e
    | .error e => s.dropFailedAt k i.tenant e) s
  if far.isEmpty then s else s.outTouch i.tenant i.cls far

/-- WBLD_COMPLETION (R211, R212): no request is made during a relock (R205), nor under a freeze (14 R322), nor of bytes under a copy in
flight (R246). -/
def execWbldCompletion (core slotk : Nat) (s : State) : Out :=
  onRunning core s (
    let mine := fun (c : MatCmd) => match c.op with | .wbld n .. => n == slotk | _ => false
    match (s.core core).mat.loads.find? mine with
    | none => s
    | some c =>
      match c.op with
      | .wbld n a b x =>
        if (s.die (dieOfCore core)).clk.relock.isSome then s
        else
          let code := natBits x.toNat 0 4
          let spar := natBits x.toNat 4 2
          let nb := natBits x.toNat 8 9
          let size := 4 * nb * wRecord code spar
          let chunks := List.range ((size + 251) / 252)
          let vas := imageChunks a.toNat b.toNat chunks.length
          if s.imageGuarded c.iss.tenant core vas then s else
          let t := s.imageTouch c.iss core (vas.take chunks.length)
          let r := s.loadImage c.iss.tenant core a.toNat b.toNat code spar (4 * nb) chunks []
          let s := t.onMat core (fun m => { m with loads := m.loads.filter (fun y => !mine y) })
          match r with
          | .ok bs =>
            (s.onSlot core n (fun _ =>
              { load := false, valid := true, spar, fmt := code, nb, data := byteTable (bs.take size), opA := a, opB := b, opC := x })).matDone
              core c 0
          | .error (ch, r) =>
            ((s.onSlot core n (fun w => { w with load := false, valid := false, opA := a, opB := b, opC := x })).wbRecord
              core c n a.toNat ch r).matDone core c stMDF
      | _ => s)

/-! Draining (R222 to R227). -/

/-- One step of the dropout hash (R223). -/
def hashStep (h mul : Word) (sh : Nat) : Word := let x := h * mul; x ^^^ (x >>> sh)

/-- Rand (R223). -/
def rand (seed step : Word) (row col : Nat) : Nat :=
  let h : Word := seed ^^^ (step * 0xA4C9_7315_E08B_2D63#64) ^^^ (BitVec.ofNat 64 (row % 2 ^ 32) <<< 32) ^^^ BitVec.ofNat 64 (col % 2 ^ 32)
  let h := hashStep h 0xC2D6_19A5_7E43_B0F1#64 31
  let h := hashStep h 0x8B1F_64E3_D29A_5C37#64 27
  let h := hashStep h 0xE57A_0C9D_3B86_41AD#64 33
  let h := hashStep h 0x9F30_B8E1_46C7_2D5B#64 29
  h.toNat / 2 ^ 32

/-- An FP32 product and an FP32 sum of patterns, rounded, with their status bits (R67). -/
def mulF32 (x y : Nat) : Nat × Nat :=
  let (v, f) := mulFl (decodeFp 0x10 x) (decodeFp 0x10 y)
  let (p, g) := roundFp 0x10 false false v
  (p, f ||| g ||| sigNV [decodeFp 0x10 x, decodeFp 0x10 y])

def addFl32 (x y : Fl) : Nat × Nat :=
  let (v, f) := sumFl [x, y]
  let (p, g) := roundFp 0x10 false false v
  (p, f ||| g ||| sigNV [x, y])

/-- The address of the first element of granule `g`, in memory (R222, R224). -/
def granuleVa (d : BitVec 512) (g : Nat) : Nat :=
  if dPlain d then (dDst d + 16 * (g / 4) * dStride d + 16 * (g % 4) * dEl d) % 2 ^ 64
  else (dDst d + g / 4 * dStride d + g % 4 * payloadBytes (dOutf d)) % 2 ^ 64

/-- The addresses that the rows of granule `g`, and those of the residual, begin at in memory. -/
def granuleVas (d : BitVec 512) (g : Nat) : List Nat :=
  if dDspace d then []
  else if dPlain d then (List.range 16).map (fun r => (granuleVa d g + r * dStride d) % 2 ^ 64) else [granuleVa d g]
def resVas (d : BitVec 512) : List Nat :=
  if dRes d = 0 ∨ dRspace d then [] else (List.range 64).map (fun i => (dRes d + i * dRstride d) % 2 ^ 64)

/-- TLB entries that the translations of a drain passed over are dropped (R341). -/
def State.drainTlb (s : State) (k : Nat) (i : Issuer) (rd wr : Bool) (vas : List Nat) : State :=
  ((vas.map (· / 65536)).dedup).foldl (fun s p => match s.translate k i.tenant (p * 65536) rd wr false with
    | .ok e => s.dropPassed k i.tenant (p * 65536) e
    | .error _ => s) s

/-- Where a byte of a drain's output or residual lies: in the scratchpad of the group, or by translation, for reading, writing or both
(R339). -/
def State.drainByte (s : State) (k : Nat) (c : MatCmd) (sp rd wr : Bool) (a : Nat) : Except AccErr PByte :=
  if sp then .ok ((s.matGroup k c.iss).sByte k a)
  else atAddr a (do
    let e ← s.translate k c.iss.tenant a rd wr false
    let b := s.pbyte e a
    if let some x := s.placeErr (s.team k c.iss.slot).id.prv wr [b] then throw x
    if pteFmt e ≠ 0 then throw { code := 0x16 }
    pure b)

/-- Bytes of a plain element. -/
def State.drainBytes (s : State) (k : Nat) (c : MatCmd) (sp rd wr : Bool) (a n : Nat) : Except AccErr (List PByte) :=
  (List.range n).mapM (fun i => s.drainByte k c sp rd wr ((a + i) % 2 ^ 64))

/-- The address of residual element (i, j). -/
def resAddr (d : BitVec 512) (i j : Nat) : Nat := (dRes d + i * dRstride d + j * dRel d) % 2 ^ 64

/-- Every residual element as an exact value; a fault; or the address of one that is uncorrectable (R222). -/
def State.residuals (s : State) (k : Nat) (c : MatCmd) (d : BitVec 512) : Except AccErr (List Fl × Option Nat) := do
  let xs ← (List.range 4096).mapM (fun e => do
    let a := resAddr d (e / 64) (e % 64)
    let bs ← s.drainBytes k c (dRspace d) true false a (dRel d)
    let r := bs.map s.homeByte
    pure (decodeFp (if dResf d then 0xF else 0x10) (leNat (r.map Prod.fst)), if r.any Prod.snd then some a else none))
  pure (xs.map Prod.fst, xs.findSome? Prod.snd)

/-- The bytes of a drain's residual that can be placed now; they wait for copies in flight over them (R246). -/
def State.resBytes (s : State) (k : Nat) (c : MatCmd) (d : BitVec 512) : List PByte :=
  if dRes d = 0 then []
  else (List.range 64).flatMap (fun i => (List.range (64 * dRel d)).filterMap (fun n =>
    (s.drainByte k c (dRspace d) true false ((resAddr d i 0 + n) % 2 ^ 64)).toOption))

/-- Steps 2 to 4 of the epilogue on one element (R222). -/
def epilogue (d : BitVec 512) (i j img : Nat) (res : Option Fl) : Nat × Nat :=
  let (y, f) := mulF32 img (dScale d)
  let (y, f) := match res with
    | none => (y, f)
    | some r => let (z, g) := addFl32 (decodeFp 0x10 y) r; (z, f ||| g)
  if dDrop d then
    if rand (BitVec.ofNat 64 (recBits d 320 64)) (BitVec.ofNat 64 (recBits d 256 64)) (recBits d 128 32 + i) (recBits d 96 32 + j) < dThr d
    then (0, f)
    else let (z, g) := mulF32 y (dKscl d); (z, f ||| g)
  else (y, f)

/-- Where a scaled granule lies (R224): device, payload and entry; `some` for the scratchpad offset guard. -/
def State.granulePlace (s : State) (k : Nat) (c : MatCmd) (d : BitVec 512) (g : Nat) : Except AccErr (Option Nat × Nat × Nat) :=
  let code := dOutf d
  let pb := payloadBytes code
  if dDspace d then
    let a := winBase k + (s.matGroup k c.iss).base + dDst d + (4 * (g % 4) + g / 4) * recordBytes code
    .ok (none, a, a + pb)
  else
    let va := granuleVa d g
    atAddr va (do
      let e ← s.translate k c.iss.tenant va (dAdd d) true false
      if let some x := s.placeErr (s.team k c.iss.slot).id.prv true (s.placeOf e va) then throw x
      if pteFmt e ≠ code ∨ va % 65536 % pb ≠ 0 then throw { code := 0x16 }
      let t := va % 65536 / pb
      pure (s.leafDev e, pteAddr e + t * pb, pteSframe e + 16 * t))

/-- The 256 values of granule `g` (R222). -/
def granuleOfYs (ys : List Nat) (g : Nat) : List Nat :=
  (List.range 256).map (fun n => ys.getD (64 * (16 * (g / 4) + n / 16) + 16 * (g % 4) + n % 16) 0)

/-- A scaled granule written, or added to what is there (R224, R225), an uncorrectable one staying so as a whole: the state and the
status bits; with reserved bits of a cursor it is not written (R235; log 130). -/
def State.scaledGranule (s : State) (k va : Nat) (d : BitVec 512) (xs : List Nat) (dev : Option Nat) (pay ent : Nat) :
    Except AccErr (State × Nat) :=
  let code := dOutf d
  let pb := payloadBytes code
  let op := (List.range pb).map (fun i => s.homeByte { dev := dev, pa := pay + i })
  let oe := (List.range 16).map (fun i => s.homeByte { dev := dev, pa := ent + i })
  let payload := op.map Prod.fst
  let entry := leNat (oe.map Prod.fst)
  let (ys, f) :=
    if !dAdd d then (xs, 0)
    else
      let ok := tileOk payload entry
      let r := (xs.zip (List.range 256)).map (fun x =>
        let (v, g, bad) := if ok then tileVal code payload entry (x.2 / 16) (x.2 % 16) else (.fin false 0 0, 0, false)
        let (p, h) := addFl32 v (decodeFp 0x10 x.1)
        (p, g ||| h ||| (if bad then stMDF else 0)))
      (r.map Prod.fst, orAll (r.map Prod.snd) ||| (if entValid entry && !ok then stMDF else 0))
  let (p, e, g) := formTile ys code (s.nextSeq dev ent)
  if ((ElemAt.reach { code, dev, pay, ent, n := 0 }).zip (p ++ leBytes 16 e)).any (fun x => s.cursorReserved x.1 x.2) then
    .error { code := 0x18, addr := va }
  else
  let s := s.putTile k dev pay ent p e
  let s := if dAdd d && dev.isNone && (op ++ oe).any Prod.snd then
      s.onMem (fun m => ((List.range pb).map (pay + ·) ++ (List.range 16).map (ent + ·)).foldl Memory.spoil m)
    else s
  .ok (s, f ||| g)

/-- A plain granule (R222, R224, R225); one that is added to and was uncorrectable in any byte stays so as a whole. -/
def State.plainGranule (s : State) (k : Nat) (c : MatCmd) (d : BitVec 512) (g : Nat) (xs : List Nat) : Except AccErr (State × Nat) := do
  let ty := if dOutf d = 7 then 0xF else 0x10
  let w := dEl d
  let els ← (xs.zip (List.range 256)).mapM (fun x => do
    let i := 16 * (g / 4) + x.2 / 16
    let j := 16 * (g % 4) + x.2 % 16
    let bs ← s.drainBytes k c (dDspace d) (dAdd d) true ((dDst d + i * dStride d + j * w) % 2 ^ 64) w
    let old := bs.map s.homeByte
    let (y, f) :=
      if dAdd d then
        let o := decodeFp ty (leNat (old.map Prod.fst))
        let v := decodeFp 0x10 x.1
        let (z, f) := sumFl [o, v]
        let (p, h) := roundFp ty false false z
        (p, f ||| h ||| sigNV [o, v])
      else if ty = 0x10 then (x.1, 0) else roundFp ty false false (decodeFp 0x10 x.1)
    pure (bs, leBytes w y, dAdd d && old.any Prod.snd, f))
  let bs := els.flatMap (fun e => e.1)
  let bad := els.any (fun e => e.2.2.1)
  let xs := els.flatMap (fun e => e.2.1)
  if (bs.zip xs).any (fun x => s.cursorReserved x.1 x.2) then throw { code := 0x18, addr := granuleVa d g }
  let s := s.engineWrite k bs xs (bs.map (fun _ => bad))
  pure (s, orAll (els.map (fun e => e.2.2.2)))

/-- The bytes of granule `g` that can be placed now; they wait for copies in flight over them (R246). -/
def State.granuleBytes (s : State) (k : Nat) (c : MatCmd) (d : BitVec 512) (g : Nat) : List PByte :=
  if dPlain d then
    (List.range 16).flatMap (fun r => (List.range (16 * dEl d)).filterMap (fun n =>
      (s.drainByte k c (dDspace d) (dAdd d) true
        ((dDst d + (16 * (g / 4) + r) * dStride d + 16 * (g % 4) * dEl d + n) % 2 ^ 64)).toOption))
  else match s.granulePlace k c d g with
    | .error _ => []
    | .ok (dev, pay, ent) => ElemAt.reach { code := dOutf d, dev, pay, ent, n := 0 }

/-- Whether a drain asks for memory outside the core's scratchpad (R205). -/
def drainFabric (d : BitVec 512) : Bool := !dDspace d || (dRes d != 0 && !dRspace d)

/-- A drain stops at granule `g` with its record (R226, R378). -/
def State.drainFault (s : State) (k : Nat) (dr : DrainRun) (a t : Nat) (d : BitVec 512) (e : AccErr) : State :=
  let c := dr.cmd
  let s := s.dropFailedAt k c.iss.tenant e
  let (x, y) := (s.team k c.iss.slot).tops
  let r : RecHead :=
    { gref := c.iss.gref, rtop := x, rnext := y, code := e.code, reason := e.reason, agent := 3, pend := true
      tenant := c.iss.tenant, core := k, tslot := c.iss.slot, next := 1
      body := a * 2 ^ 192 + e.addr * 2 ^ 128 + dr.g * 2 ^ 96 + t * 2 ^ 92 }
  let s := (s.record (dieOfCore k) r [d]
    { pend := true, counted := true, agent := 3, core := k, unit := t, code := e.code, gref := c.iss.gref }).1
  s.onMat k (fun m => { m with drain := some { dr with pend := true } })

/-- Granules from `g` on, until the drain ends, faults or waits (R222, R226). -/
def State.drainGo (s : State) (k a t : Nat) (z : Bool) (d : BitVec 512) : Nat → DrainRun → State
  | 0, dr =>
    let s := if z then s.onTile k t Tile.zero else s
    (s.onMat k (fun m => { m with drain := none })).matDone k dr.cmd dr.stat
  | n + 1, dr =>
    let bs := s.granuleBytes k dr.cmd d dr.g
    if bs.any s.guarded then s.onMat k (fun m => { m with drain := some dr })
    else
      let xs := granuleOfYs dr.ys dr.g
      let p := if dAdd d then s.promoteFor bs else (s, 0)
      let r : Except AccErr (State × Nat) :=
        if dPlain d then p.1.plainGranule k dr.cmd d dr.g xs
        else (p.1.granulePlace k dr.cmd d dr.g).bind (fun q => p.1.scaledGranule k (granuleVa d dr.g) d xs q.1 q.2.1 q.2.2)
      match r with
      | .error e => s.drainFault k dr a t d e
      | .ok (s, f) =>
        let s := (s.outTouch dr.cmd.iss.tenant dr.cmd.iss.cls bs).drainTlb k dr.cmd.iss (dAdd d) true (granuleVas d dr.g)
        State.drainGo s k a t z d n { dr with g := dr.g + 1, stat := dr.stat ||| f ||| p.2 }

/-- Consumed poison at the array halts the team that issued the command (R207, R386). That its record has no NRPM and that RPM stays is
the model's choice (log 142). -/
def State.drainPoison (s : State) (k : Nat) (dr : DrainRun) (fr : FaultReq) : State :=
  let c := dr.cmd
  let s := s.onMat k (fun m => { m with drain := none })
  let i := c.iss.slot
  if (s.team k i).id.gref ≠ c.iss.gref ∨ (s.team k i).st = 4 then s.matDone k c dr.stat
  else (((s.teamRecord k i c.iss.pc { fr with word := c.iss.word } 0).1).matDone k c dr.stat).haltIssuer k c.iss

/-- The epilogue on the whole tile (R222), before any write. -/
def State.drainStart (s : State) (k t : Nat) (dr : DrainRun) (d : BitVec 512) (res : List Fl) : DrainRun :=
  let r := (List.range 4096).map (fun e =>
    epilogue d (e / 64) (e % 64) (Tbl.get 0 ((s.core k).tile t).img e).toNat (if dRes d = 0 then none else res[e]?))
  { dr with ys := r.map Prod.fst, stat := dr.stat ||| orAll (r.map Prod.snd) }

/-- A drain from its start (R222): the tile is promoted; then the residual is read, and nothing is written before all of it is. Of poison
in both the record names the accumulator's, and lane 0, which is the model's choice (log 142). -/
def State.drainBegin (s : State) (k a t : Nat) (z : Bool) (d : BitVec 512) (dr : DrainRun) : State :=
  let (tile, f) := ((s.core k).tile t).promote
  let s := s.onTile k t (fun _ => tile)
  let dr := { dr with stat := dr.stat ||| f }
  let rs := s.resBytes k dr.cmd d
  if rs.any s.guarded then s.onMat k (fun m => { m with drain := some dr })
  else
    match tile.pz with
    | _ :: _ => s.drainPoison k dr (poison 2 t 0)
    | [] =>
      match if dRes d = 0 then .ok ([], none) else s.residuals k dr.cmd d with
      | .error e => s.drainFault k dr a t d e
      | .ok (_, some va) => s.drainPoison k dr (poison 3 0 0 true va)
      | .ok (res, none) =>
        ((s.engineReads k dr.cmd.iss rs).drainTlb k dr.cmd.iss true false (resVas d)).drainGo k a t z d 16 (s.drainStart k t dr d res)

/-- Whether the drain in the array may go on: not stopped at a record; through the fabric port, not in a relock (R205); as a release, not
before the accesses that its team has held (R227); under a freeze, only when it is in progress (14 R322). -/
def State.drainFree (s : State) (k : Nat) (dr : DrainRun) (d : BitVec 512) : Bool :=
  !dr.pend && !((if dr.ys.isEmpty then drainFabric d else !dDspace d) && (s.die (dieOfCore k)).clk.relock.isSome) && !(dRelease d && s.earlierHeld k dr.cmd.iss)
  && !(s.stopped k && dr.ys.isEmpty)

/-- DRAIN_EXECUTE (R222 to R227): the drain in the array runs as far as it can. -/
def execDrainExecute (core : Nat) (s : State) : Out :=
  onUnit "core" core 192 (
    match (s.core core).mat.drain with
    | none => s
    | some dr =>
      match dr.cmd.op with
      | .adrn z t a d =>
        if !s.drainFree core dr d then s
        else if dr.ys.isEmpty then s.drainBegin core a.toNat t z d dr
        else s.drainGo core a.toNat t z d (16 - dr.g) dr
      | _ => s)

end Sys2Proof.Machine
end

