-- ==== Sys2Proof/Machine/Place.lean ====
section
/-! DEFINITION. Launch headers (13 R298, R299; 02 R17 to R23), room on a core, placing and freeing a group (02 R24, R26; 09 R202;
10 R236, R237; 13 R304, R305). -/

namespace Sys2Proof.Machine

/-! Fields of a launch header (R298). -/
def hYb (h : BitVec 512) : Nat := recBits h 496 16 + 1
def hGoff (h : BitVec 512) : Nat := recBits h 480 16
def hGbind (h : BitVec 512) (k : Nat) : Bool := h.getLsbD (464 + k)
def hQueue (h : BitVec 512) (k : Nat) : Nat := recBits h (416 + 6 * k) 6
def hRole (h : BitVec 512) (k : Nat) : Nat := recBits h (384 + 2 * k) 2
def hScr (h : BitVec 512) : Nat := recBits h 333 12 * 1024
def hNbar (h : BitVec 512) : Nat := recBits h 319 6
def hT (h : BitVec 512) : Nat := recBits h 60 4 + 1
def hN (h : BitVec 512) : Nat := 32 * (recBits h 260 5 + 1)
def hCl (h : BitVec 512) : Nat := recBits h 57 3
def hStart (h : BitVec 512) : Nat := recBits h 128 64
def hEntry (h : BitVec 512) : Word := BitVec.ofNat 64 (recBits h 0 57 * 8)
def hCbm (h : BitVec 512) (k : Nat) : Bool := h.getLsbD (325 + k)
def hGbm (h : BitVec 512) (k : Nat) : Bool := h.getLsbD (124 + k)

/-- The vector budget of a role (R23). -/
def hBudget (h : BitVec 512) (role : Nat) : Nat :=
  8 * (match role with | 0 => recBits h 307 4 | 1 => recBits h 311 4 | _ => recBits h 315 4)

/-- Extents e2 to e5, and widths (R19). -/
def hExt (h : BitVec 512) (k : Nat) : Nat :=
  match k with | 2 => recBits h 192 32 | 3 => recBits h 224 12 | 4 => recBits h 236 12 | _ => recBits h 248 12
def hWidth (h : BitVec 512) (i : Nat) : Nat := recBits h (265 + 7 * i) 7

/-- Groups of a task (R20). -/
def hGroups (h : BitVec 512) : Nat := hExt h 2 * hExt h 3 * hExt h 4 * hExt h 5

/-- Groups of a cluster set, or 1 (R21). -/
def hSet (h : BitVec 512) : Nat :=
  if hCl h = 0 then 1 else ((List.range (hCl h - 2)).map (fun i => hExt h (i + 2))).foldl (· * ·) 1

/-- Bytes of access queue `k`: 0 when unused. -/
def hQbytes (h : BitVec 512) (k : Nat) : Nat :=
  let x := hQueue h k
  if x % 16 = 0 then 0 else 8 * 2 ^ (x / 16) * 2 ^ (x % 16)

/-- The allocation of a group (R236). -/
def hAlloc (h : BitVec 512) : Nat := (hScr h + ((List.range 8).map (hQbytes h)).sum + 1023) / 1024 * 1024

/-- ceil(log2 n) for n above 0. -/
def clog2 (n : Nat) : Nat := if n ≤ 1 then 0 else (n - 1).log2 + 1

/-- Team indexes of a group, the roles in use, gatherers bound. -/
def hTeams (h : BitVec 512) : List Nat := List.range (hT h)
def hBound (h : BitVec 512) : List Nat := (List.range 16).filter (hGbind h)
def hMtx (h : BitVec 512) : Bool := (hTeams h).any (fun k => hRole h k == 2)

/-- Register-file rows of a group (R23, R235). -/
def hRows (h : BitVec 512) : Nat := ((hTeams h).map (fun k => hN h / 32 * hBudget h (hRole h k))).sum

/-- R19 to R22 hold. -/
def hShapeOk (h : BitVec 512) : Bool :=
  let ws := (List.range 6).map (hWidth h)
  ws.all (· ≤ 64) && decide (ws.sum ≤ 64) && decide (clog2 (hN h) ≤ hWidth h 0) && decide (clog2 (hT h) ≤ hWidth h 1)
  && (List.range 4).all (fun i => decide (1 ≤ hExt h (i + 2) ∧ clog2 (hExt h (i + 2)) ≤ hWidth h (i + 2)))
  && decide (hGroups h ≤ 2 ^ 32 - 1)
  && [0, 3, 4, 5, 6].contains (hCl h) && (hCl h == 0 || decide (hSet h ≤ 8))
  && (hTeams h).all (fun k => hRole h k != 3)

/-- The counter of a WAITC or SIGC field, when enabled (R298). -/
def hCounter (h : BitVec 512) (lo : Nat) : Option Nat := if h.getLsbD (lo + 12) then some (recBits h lo 12) else none
def hWaitc (h : BitVec 512) : Option Nat := hCounter h 355
def hSigc (h : BitVec 512) : Option Nat := hCounter h 368

/-- The lowest case of R299 that holds for a record of tenant `ten`, or none. -/
def State.malformed (s : State) (h : BitVec 512) (ten : Nat) : Option Nat :=
  let away := fun (c : Option Nat) => match c with | some i => (s.dc i).owner != ten | none => false
  if !hShapeOk h then some 1
  else if recBits h 381 3 ≠ 0 then some 2
  else if [307, 311, 315].any (fun lo => decide (8 < recBits h lo 4)) || decide (32 < hNbar h)
      || (hTeams h).any (fun k => hBudget h (hRole h k) == 0) then some 4
  else if (List.range 8).any (fun k => decide (12 < hQueue h k % 16)) then some 5
  else if 3 * 2 ^ 20 < hAlloc h then some 6
  else if decide (4 < (hBound h).length) || (hBound h).any (fun k => decide (hT h ≤ k)) then some 7
  else if hYb h < 256 then some 8
  else if 2048 < hT h * hN h ∨ 4096 < hRows h then some 9
  else if away (hWaitc h) || away (hSigc h) then some 10
  else if (List.range 4).any (fun k =>
      let g := Tbl.get {} s.io.grids k
      hGbm h k && (!g.en || g.tenant != ten || !g.map.getLsbD s.io.domidx)) then some 11
  else none

/-! Room on a core (R18, R24). -/

/-- The lowest start of `n` free units below `limit` beside the ranges in use. -/
def firstFit (limit n : Nat) (used : List (Nat × Nat)) : Option Nat :=
  (((0 :: used.map Prod.snd).dedup).foldr insertAsc []).find? (fun a =>
    decide (a + n ≤ limit) && used.all (fun u => decide (a + n ≤ u.1 ∨ u.2 ≤ a)))

/-- Several runs fitted one after the other. -/
def fitMany (limit : Nat) : List Nat → List (Nat × Nat) → Option (List Nat)
  | [], _ => some []
  | n :: ns, used => do
    let a ← firstFit limit n used
    let rest ← fitMany limit ns ((a, a + n) :: used)
    pure (a :: rest)

/-- Where a group would go on a core. -/
structure Room where
  slots : List Nat
  lanes : List Nat
  rows : List Nat
  base : Nat
  bbase : Nat
  gaths : List Nat
deriving DecidableEq, Repr

/-- Groups resident on a core. -/
def Core.resident (c : Core) : List (Nat × Group) := c.groups.filter (fun e => !e.2.slots.isEmpty)

/-- Room for a group of a header on core `k` (R18, R24, R202), or none. -/
def State.room (s : State) (k : Nat) (h : BitVec 512) : Option Room :=
  let c := s.core k
  let t := hT h
  let busy := (List.range 16).filter (fun i => (c.team i).st != 0)
  let free := (List.range 16).filter (fun i => (c.team i).st == 0)
  let gs := (List.range 4).filter (fun j => !(Tbl.get {} c.gaths j).bound)
  if c.ctl.retired || decide (free.length < t) || decide (gs.length < (hBound h).length) || (hMtx h && c.mat.holder.isSome) then none
  else do
    let lanes ← fitMany 2048 ((hTeams h).map (fun _ => hN h)) (busy.map (fun i => ((c.team i).id.lb, (c.team i).id.lb + (c.team i).id.lanes)))
    let rows ← fitMany 4096 ((hTeams h).map (fun i => hN h / 32 * hBudget h (hRole h i)))
      (busy.map (fun i => let d := (c.team i).id; (d.rb, d.rb + d.lanes / 32 * d.budget)))
    let base ← firstFit (3 * 2 ^ 20) (hAlloc h) (c.resident.map (fun e => (e.2.base, e.2.base + e.2.size)))
    let bbase ← firstFit 32 (hNbar h) (c.resident.map (fun e => (e.2.bbase, e.2.bbase + e.2.nbar)))
    pure { slots := free.take t, lanes, rows, base, bbase, gaths := gs.take (hBound h).length }

/-- The group reference of a group of a task (R319). -/
def grefOf (tag g : Nat) : Word := BitVec.ofNat 64 (g * 2 ^ 32 + tag / 2 ^ 32 % 256 * 2 ^ 24 + tag % 2 ^ 24)

/-- What a team is once placed (R298). -/
def teamIdOf (h : BitVec 512) (tk : Task) (tag g i slot lb rb : Nat) : TeamId :=
  { grp := slot, gref := grefOf tag g, tag, gidx := g, tidx := i, role := hRole h i, budget := hBudget h (hRole h i)
    tenant := tk.tenant, lanes := hN h, rb, lb, cls := tk.cls, prv := tk.prv, yb := hYb h, start := hStart h }

/-- Control words of the access queues at dispatch (R307). -/
def queueWords (h : BitVec 512) : Tbl Word :=
  (List.range 8).filterMap (fun k =>
    if hQbytes h k = 0 then none
    else
      let base := hScr h + ((List.range k).map (hQbytes h)).sum
      some (k, BitVec.ofNat 64 (hQueue h k / 16 * 2 ^ 30 + hQueue h k % 16 * 2 ^ 26 + base)))

/-- The cores of cluster `c` of a die. -/
def clusterCores (d c : Nat) : List Nat := (List.range 8).map (fun p => 48 * d + 8 * c + p)

/-- A group put on a core (R26, R237, R305): every resource is taken, the allocation reads zero, barriers and registers are as at
dispatch. -/
def State.placeGroup (s : State) (k tag g : Nat) (h : BitVec 512) (r : Room) : State :=
  let tk := s.task tag
  let low := r.slots.headD 0
  let gref := grefOf tag g
  let cyc := (s.die (dieOfCore k)).clk.cyc.toNat
  let grp : Group :=
    { gref, tag, gidx := g, hdr := h, tenant := tk.tenant, slots := r.slots, base := r.base, size := hAlloc h
      queues := queueWords h, nbar := hNbar h, bbase := r.bbase, gaths := r.gaths, mtx := hMtx h
      cluster := if hCl h = 0 then none else some (clusterOf k) }
  let teams := ((r.slots.zip (List.range r.slots.length)).zip (r.lanes.zip r.rows)).map (fun x =>
    (x.1.1, ({ st := 1, id := teamIdOf h tk tag g x.1.2 low x.2.1 x.2.2
               path := { pc := hEntry h, mask := Mask.of (lanesBelow (hN h)) }, sched := { ref := cyc } } : Team)))
  let lo := winBase k + r.base
  let s := s.onMem (fun m => { bytes := Tbl.clear lo (lo + hAlloc h) m.bytes, bad := Tbl.clear lo (lo + hAlloc h) m.bad })
  let gathPc := pcMask (hEntry h + BitVec.ofInt 64 (8 * toInt true 16 (hGoff h)))
  let gaths := (r.gaths.zip (hBound h)).map (fun x =>
    (x.1, ({ bound := true, slot := r.slots.getD x.2 0, grp := low, pc := gathPc } : Gatherer)))
  let s := s.onCore k (fun c =>
    { c with teams := teams.foldl (fun t e => Tbl.set {} t e.1 { e.2 with id := { e.2.id with grp := low } }) c.teams
             groups := Tbl.set {} c.groups low grp
             gaths := gaths.foldl (fun t e => Tbl.set {} t e.1 e.2) c.gaths
             mat := if hMtx h then { c.mat with holder := some low } else c.mat
             tabs := { c.tabs with bars := (List.range (hNbar h)).foldl (fun t b => Tbl.set {} t (r.bbase + b) {}) c.tabs.bars } })
  s.l1Acquire k 5 true

/-! Completion of a task (R305, R367). -/

/-- Whether any part of a task is still to be placed, resident or saved. -/
def State.taskBusy (s : State) (tag : Nat) : Bool :=
  (List.range 4).any (fun d => (s.die d).disp.active.any (fun a => a.tag == tag))
  || s.cores.any (fun c => c.2.resident.any (fun g => g.2.tag == tag))
  || !(s.task tag).saved.isEmpty

/-- The signal counter falls, with ERR for an error (R367). -/
def State.signalTask (s : State) (h : BitVec 512) (err : Bool) : State :=
  match hSigc h with
  | none => s
  | some i => s.onDc i (fun c => { c with val := c.val - 1, err := c.err || err })

/-- The TDISP and TRET events (R319, R320). -/
def State.taskDispatched (s : State) (d tag cls tenant : Nat) : State :=
  s.emit (s.lowCore d) 0x09 0 tenant (tag * 2 ^ 24 + cls % 4 * 2 ^ 22) true
def State.taskRetired (s : State) (d tag tenant : Nat) (err : Bool) : State :=
  s.emit (s.lowCore d) 0x0A 0 tenant (tag * 2 ^ 24 + err.toNat * 2 ^ 23) true

/-- A task completes: its event, its release, its counter; grid barriers it holds are free (R305, R361). -/
def State.completeTask (s : State) (tag : Nat) : State :=
  let t := s.task tag
  let s := (s.taskRetired t.die tag t.tenant t.err).signalTask t.hdr t.err
  let s := (List.range 4).foldl (fun s k =>
    if (Tbl.get {} s.io.grids k).holder = some tag then s.onGrid k (fun g => { g with holder := none, bar := g.bar.released }) else s) s
  let s := (List.range 4).foldl (fun s d => s.onDie d (fun x => { x with disp := { x.disp with paused := x.disp.paused.filter (· != tag) } })) s
  { s with tasks := Tbl.erase tag s.tasks }

/-! Freeing a group (R26, R202, R237). -/

/-- Whether engines of a core still work for a group, and held accesses of its teams (R385). -/
def State.groupBusy (s : State) (k g : Nat) : Bool :=
  let c := s.core k
  let gref := (c.group g).gref
  c.copies.any (fun x => x.iss.gref == gref)
  || (c.mat.fifo ++ c.mat.loads ++ c.mat.mmas.map (·.cmd) ++ (c.mat.drain.map (·.cmd)).toList).any (fun x => x.iss.gref == gref)
  || c.mat.late.any (fun x => x.1.gref == gref)
  || (c.group g).slots.any (fun i => (c.team i).fly.any (fun f => !f.held.isEmpty))

/-- The matrix state of a core cleared for its next holder (R202). -/
def CoreMat.cleared (m : CoreMat) : CoreMat := { m with tiles := [], slots := [], holder := none }

/-- The table entries that a group holds (R164, R173). -/
def heldLdt (c : Core) (g : Nat) : List Nat := (c.tabs.ldt.filter (fun e => e.2.lv && e.2.hold == g)).map Prod.fst
def heldPats (c : Core) (g : Nat) : List Nat := (c.tabs.pats.filter (fun e => e.2.lv && e.2.hold == g)).map Prod.fst

/-- The cluster barriers of a cluster set whose last group on a core leaves are free (R361); how they stood stays with the task, for a set
that is saved (log 114). -/
def State.leaveCbs (s : State) (k cl : Nat) (gr : Group) : State :=
  (List.range 8).foldl (fun s b =>
    if !hCbm gr.hdr b then s
    else
      let key := 8 * cl + b
      let s := s.onDie (dieOfCore k) (fun d => { d with cbHeld := Tbl.upd 0 d.cbHeld key (· - 1) })
      let d := s.die (dieOfCore k)
      if Tbl.get 0 d.cbHeld key = 0 ∧ (s.task gr.tag).live = true then
        s.onTask gr.tag (fun t => { t with cbs := Tbl.set {} t.cbs (8 * (gr.gidx / hSet gr.hdr) + b) (Tbl.get {} d.cbars key) })
      else s) s

/-- A group leaves its core and everything it held is free and clear, with the metadata lines of its entries (R177). -/
def State.freeGroup (s : State) (k g : Nat) : State :=
  let gr := (s.core k).group g
  let lo := winBase k + gr.base
  let s := s.onMem (fun m => { bytes := Tbl.clear lo (lo + gr.size) m.bytes, bad := Tbl.clear lo (lo + gr.size) m.bad })
  let s := s.onCore k (fun c =>
    { c with teams := gr.slots.foldl (fun t i => Tbl.erase i t) c.teams
             groups := Tbl.erase g c.groups
             gaths := gr.gaths.foldl (fun t j => Tbl.erase j t) c.gaths
             mat := if gr.mtx then c.mat.cleared else c.mat
             tabs := { c.tabs with
               ldt := (heldLdt c g).foldl (fun t i => Tbl.upd {} t i (fun e => { e with lv := false })) c.tabs.ldt
               meta_ := c.tabs.meta_.filter (fun l => !(heldLdt c g).contains (l.1 / 2 ^ 48))
               pats := (heldPats c g).foldl (fun t i => Tbl.upd {} t i (fun e => { e with lv := false })) c.tabs.pats } })
  match gr.cluster with
  | none => s
  | some cl => s.leaveCbs k cl gr

/-- Whether every team of a group has reached HALTED or DONE and its engines are done with it. -/
def State.groupOver (s : State) (k g : Nat) : Bool :=
  let gr := (s.core k).group g
  !gr.slots.isEmpty && gr.slots.all (fun i => (s.team k i).st == 4 || (s.team k i).st == 5) && !s.groupBusy k g

/-- Every group of a core that is over is freed. -/
def State.freeGroups (s : State) (k : Nat) : State :=
  ((s.core k).groups.map Prod.fst).foldl (fun s g => if s.groupOver k g then s.freeGroup k g else s) s

end Sys2Proof.Machine
end

