-- ==== Sys2Proof/Machine/Context.lean ====
section
/-! DEFINITION. Save and restore of groups (17 R391 to R394, R383): the image of a group in a save area, byte by byte. Where
R393 fixes no place within a part, the places are the model's own. -/

namespace Sys2Proof.Machine

/-- A byte with its condition (R233). -/
abbrev BB := Byte × Bool

/-- `n` good bytes of a number. -/
def leBB (n x : Nat) : List BB := (leBytes n x).map (fun b => (b, false))

/-- Padding to the next multiple of 256 bytes. -/
def pad256 (bs : List BB) : List BB := bs ++ List.replicate ((256 - bs.length % 256) % 256) (0, false)

/-- The number in `n` bytes at an offset, and whether any of them is uncorrectable. -/
def rdBB (bs : List BB) (off n : Nat) : Nat := leNat (((bs.drop off).take n).map Prod.fst)
def badBB (bs : List BB) (off n : Nat) : Bool := ((bs.drop off).take n).any Prod.snd

/-- Masks as 33 words (R393). -/
def maskBB (m : LaneBits) : List BB := leBB 128 m.toNat ++ leBB 4 (summOf m).toNat

/-- A loop register (R49). -/
def LoopReg.num (l : LoopReg) : Nat := l.start.toNat * 2 ^ 128 + l.last.toNat * 2 ^ 64 + l.count.toNat * 2 ^ 32
def LoopReg.ofNum (x : Nat) : LoopReg :=
  { start := pcMask (BitVec.ofNat 64 (x / 2 ^ 128)), last := pcMask (BitVec.ofNat 64 (x / 2 ^ 64)), count := BitVec.ofNat 32 (x / 2 ^ 32) }

/-- Vector registers that the image of a team holds (R123, R393). -/
def Team.liveRegs (t : Team) : Nat := if t.park then t.live else if t.st = 2 then t.id.budget else 0

/-- An entry of the reconvergence stack in its 160-byte slot (R48). -/
def StackEntry.num (e : StackEntry) : Nat :=
  e.jpc.toNat * 2 ^ 1120 + e.ppc.toNat * 2 ^ 1056 + (summOf e.mask.sect).toNat * 2 ^ 1024 + e.mask.sect.toNat

def StackEntry.ofNum (x : Nat) : StackEntry :=
  { jpc := pcMask (BitVec.ofNat 64 (x / 2 ^ 1120)), ppc := pcMask (BitVec.ofNat 64 (x / 2 ^ 1056)), mask := Mask.of (BitVec.ofNat 1024 x) }

/-- The block of a team (R393). -/
def Team.block (t : Team) : List BB :=
  let n := t.id.lanes
  let r := t.regs
  let live := t.liveRegs
  let st := if t.st = 1 ∨ t.st = 2 then 3 else t.st
  let status := { t with st := st }.status
  let misc := t.arrPh.toNat + t.rewait.toNat * 2 + t.flt.atIssue.toNat * 4 + (t.st == 2 && t.wait.isSome).toNat * 8
    + t.flt.unissued.toNat * 16
  let cur := fun (l c : Nat) => Tbl.get {} r.c (8 * l + c)
  leBB 64 status ++ (List.range 64).flatMap (fun i => leBB 8 (Tbl.get 0 r.s i).toNat)
  ++ maskBB t.path.mask.sect ++ maskBB r.rpm
  ++ t.path.loops.reverse.flatMap (fun l => leBB 24 l.num)
  ++ (List.range 12).flatMap (fun i => leBB 8 (t.flag (i + 1)).blame.toNat)
  ++ (List.range 8).flatMap (fun i => leBB 2 (r.regions.getD i 0).toNat)
  ++ leBB 1 r.regions.length ++ leBB 1 misc ++ leBB 1 t.flt.code ++ leBB 1 t.flt.hdie
  ++ leBB 4 r.sig.toNat ++ leBB 4 r.ycnt ++ leBB 4 r.tstat.toNat ++ leBB 4 live ++ leBB 8 t.flt.word.toNat
  ++ t.path.stack.reverse.flatMap (fun e => leBB 160 e.num)
  ++ (List.range n).flatMap (fun l => leBB 1 (1 + ((List.range 7).map (fun p =>
      ((Tbl.get 0 r.p (p + 1)).getLsbD l).toNat * 2 ^ (p + 1))).sum))
  ++ (List.range n).flatMap (fun l => (List.range 8).flatMap (fun c =>
      (leBytes 16 (cur l c).word.toNat).map (fun b => (b, (cur l c).pz))))
  ++ (List.range n).flatMap (fun l => (List.range 8).flatMap (fun c => leBB 4 (cur l c).fib.toNat))
  ++ (List.range live).flatMap (fun v => (List.range n).flatMap (fun l => leBB 8 (Tbl.get {} r.v (1024 * v + l)).val.toNat))
  ++ leBB (live * n / 8) (((List.range (live * n)).map (fun i =>
      (Tbl.get {} r.v (1024 * (i / n) + i % n)).pz.toNat * 2 ^ i)).sum)

/-- The table of items that are not default, from a list of keys. -/
def tblOf {α : Type} [DecidableEq α] (d : α) (ks : List Nat) (f : Nat → α) : Tbl α :=
  (ks.map (fun k => (k, f k))).filter (fun e => e.2 ≠ d)

/-- The registers and path of a team from its block, for the same launch header and new places (R394). The image of R393 holds neither
the last issue, the bypass count and the promotion of R31 to R33 nor the spin counts and targets of R35, and no rule says what a restored
team has: the model starts them as for a team that has never issued (log 115). -/
def Team.ofBlock (bs : List BB) (id : TeamId) (cyc : Nat) : Team :=
  let st0 := rdBB bs 0 64
  let n := id.lanes
  let ldep := natBits st0 250 3
  let rsd := natBits st0 253 6
  let o1 := 840 + 24 * ldep
  let o2 := o1 + 96
  let o3 := o2 + 44
  let o4 := o3 + 160 * rsd
  let o5 := o4 + n
  let o6 := o5 + 128 * n
  let o7 := o6 + 32 * n
  let live := rdBB bs (o2 + 32) 4
  let o8 := o7 + live * n * 8
  let misc := rdBB bs (o2 + 17) 1
  let state := natBits st0 262 3
  let pf := st0.testBit 261
  let park := st0.testBit 260
  let pc : Word := pcMask (BitVec.ofNat 64 (st0 / 2 ^ 448))
  let loops := ((List.range ldep).map (fun i => LoopReg.ofNum (rdBB bs (840 + 24 * i) 24))).reverse
  let stack := ((List.range rsd).map (fun i => StackEntry.ofNum (rdBB bs (o3 + 160 * i) 160))).reverse
  let path : TeamPath := { pc := pc, mask := Mask.of (BitVec.ofNat 1024 (rdBB bs 576 128)), stack := stack, loops := loops }
  let path := if park then loopBack pc { path with pc := nextPc pc } else path
  let keys := (List.range live).flatMap (fun v => (List.range n).map (fun l => 1024 * v + l))
  let vcell := fun (key : Nat) => ({ val := BitVec.ofNat 64 (rdBB bs (o7 + (key / 1024 * n + key % 1024) * 8) 8)
                                     pz := (rdBB bs o8 (live * n / 8)).testBit (key / 1024 * n + key % 1024) } : VCell)
  let ckeys := List.range (8 * n)
  let ccell := fun (key : Nat) => ({ Cursor.ofNat (rdBB bs (o5 + 16 * key) 16) (rdBB bs (o6 + 4 * key) 4) with
                                     pz := badBB bs (o5 + 16 * key) 16 } : Cursor)
  let pred := fun (p : Nat) => BitVec.ofNat 1024 (((List.range n).map (fun l => ((rdBB bs (o4 + l) 1).testBit p).toNat * 2 ^ l)).sum)
  let regs : TeamRegs :=
    { s := tblOf 0 ((List.range 63).map (· + 1)) (fun i => BitVec.ofNat 64 (rdBB bs (64 + 8 * i) 8))
      v := tblOf {} keys vcell
      p := tblOf 0 ((List.range 7).map (· + 1)) pred
      c := tblOf {} ckeys ccell
      flags := tblOf {} ((List.range 12).map (· + 1)) (fun i => { blame := BitVec.ofNat 64 (rdBB bs (o1 + 8 * (i - 1)) 8) })
      regions := (List.range (rdBB bs (o2 + 16) 1)).map (fun i => BitVec.ofNat 16 (rdBB bs (o2 + 2 * i) 2))
      sig := BitVec.ofNat 32 (rdBB bs (o2 + 20) 4), ycnt := rdBB bs (o2 + 24) 4
      rpm := BitVec.ofNat 1024 (rdBB bs 708 128), tstat := BitVec.ofNat 32 (rdBB bs (o2 + 28) 4) }
  { st := if state = 4 ∨ state = 5 then state else if pf then 2 else 1
    arrd := st0.testBit 259, arrPh := misc.testBit 0, rewait := misc.testBit 1 || misc.testBit 3
    id := id, path := path, regs := regs
    flt := { pf := pf, fpc := pcMask (BitVec.ofNat 64 (st0 / 2 ^ 384)), handle := BitVec.ofNat 32 (st0 / 2 ^ 288)
             hdie := rdBB bs (o2 + 19) 1, code := rdBB bs (o2 + 18) 1, atIssue := misc.testBit 2, unissued := misc.testBit 4
             word := BitVec.ofNat 64 (rdBB bs (o2 + 36) 8) }
    sched := { ref := cyc } }

/-- The block of a gatherer: gs, gc, PC, then the model's own words (R393). -/
def Gatherer.block (g : Gatherer) (tidx : Nat) : List BB :=
  let cur := fun (c : Nat) => Tbl.get {} g.c c
  let body := (List.range 32).flatMap (fun i => leBB 8 (Tbl.get 0 g.s i).toNat)
    ++ (List.range 8).flatMap (fun c => (leBytes 16 (cur c).word.toNat).map (fun b => (b, (cur c).pz)))
    ++ leBB 8 g.pc.toNat ++ leBB 1 g.ended.toNat ++ leBB 1 tidx ++ leBB 1 g.loops.length ++ leBB 1 0
    ++ (List.range 8).flatMap (fun c => leBB 4 (cur c).fib.toNat)
    ++ g.loops.flatMap (fun l => leBB 20 (l.start.toNat + l.last.toNat * 2 ^ 64 + l.count.toNat * 2 ^ 128))
  body ++ List.replicate (512 - body.length) (0, false)

def Gatherer.ofBlock (bs : List BB) (slots : List Nat) (grp : Nat) : Gatherer :=
  { bound := true, ended := rdBB bs 392 1 == 1, slot := slots.getD (rdBB bs 393 1) 0, grp := grp
    pc := pcMask (BitVec.ofNat 64 (rdBB bs 384 8))
    s := tblOf 0 ((List.range 31).map (· + 1)) (fun i => BitVec.ofNat 64 (rdBB bs (8 * i) 8))
    c := tblOf {} (List.range 8) (fun c => { Cursor.ofNat (rdBB bs (256 + 16 * c) 16) (rdBB bs (396 + 4 * c) 4) with
                                             pz := badBB bs (256 + 16 * c) 16 })
    loops := (List.range (rdBB bs 394 1)).map (fun i =>
      let x := rdBB bs (428 + 20 * i) 20
      { start := pcMask (BitVec.ofNat 64 x), last := pcMask (BitVec.ofNat 64 (x / 2 ^ 64)), count := BitVec.ofNat 32 (x / 2 ^ 128) }) }

/-- A tile with its control word (R201, R393). -/
def Tile.block (t : Tile) : List BB :=
  (List.range 4096).flatMap (fun e => (leBytes 4 (Tbl.get 0 t.img e).toNat).map (fun b => (b, Tbl.get false t.pz e))) ++ leBB 8 t.ctl

def Tile.ofBlock (bs : List BB) : Tile :=
  ({ img := tblOf 0 (List.range 4096) (fun e => BitVec.ofNat 32 (rdBB bs (4 * e) 4))
     pz := tblOf false (List.range 4096) (fun e => badBB bs (4 * e) 4) } : Tile).withCtl (rdBB bs 16384 2)

/-- Whether the image of a group holds the accumulator tiles of its core (R123): unless every team is parked with ACC 0. -/
def State.savesTiles (s : State) (k g : Nat) : Bool :=
  !((s.core k).group g).slots.all (fun i => (s.team k i).park && !(s.team k i).acc)

/-- The image of a group, with its tiles promoted (R56, R393). -/
def State.image (s : State) (k g : Nat) : List BB :=
  let c := s.core k
  let gr := c.group g
  let ldts := heldLdt c g
  let pats := heldPats c g
  let tiles := s.savesTiles k g
  let teams := gr.slots.map c.team
  let tidx := fun (slot : Nat) => (c.team slot).id.tidx
  let rest :=
    pad256 ((List.range gr.nbar).flatMap (fun b => leBB 8 (s.nbar k (gr.bbase + b)).word))
    ++ pad256 ((List.range 8).flatMap (fun q => leBB 8 (Tbl.get 0 gr.queues q).toNat))
    ++ pad256 (ldts.flatMap (fun i => let e := Tbl.get {} c.tabs.ldt i; leBB 1 i ++ leBB 2 e.ctl ++ leBB 64 e.img.toNat ++ leBB 5 0))
    ++ pad256 (pats.flatMap (fun i => let e := Tbl.get {} c.tabs.pats i; leBB 1 i ++ leBB 2 e.ctl ++ leBB 64 e.img.toNat ++ leBB 5 0))
    ++ pad256 ((List.range 8).flatMap (fun n =>
        let w := if gr.mtx then c.slot n else {}
        leBB 8 w.valid.toNat ++ leBB 8 w.opA.toNat ++ leBB 8 w.opB.toNat ++ leBB 8 w.opC.toNat))
    ++ pad256 (gr.gaths.flatMap (fun j => (s.gath k j).block (tidx (s.gath k j).slot)))
    ++ pad256 (if tiles then (List.range 16).flatMap (fun a => (c.tile a).promote.1.block) else [])
    ++ teams.flatMap (fun t => pad256 t.block)
    ++ pad256 ((gr.sBytes k 0 gr.size).map s.homeByte)
  let head := leBB 64 gr.hdr.toNat ++ leBB 8 gr.gref.toNat ++ leBB 1 gr.slots.length ++ leBB 1 (hN gr.hdr / 32) ++ leBB 4 gr.size
    ++ leBB 1 tiles.toNat ++ leBB 1 gr.nbar ++ leBB 2 ldts.length ++ leBB 1 pats.length ++ leBB 1 gr.gaths.length
    ++ leBB 4 (256 + rest.length) ++ leBB 8 gr.tag ++ (List.range 16).flatMap (fun i => leBB 1 (gr.slots.getD i 0))
  pad256 head ++ rest

/-! Saving (R392). -/

/-- Whether a group may be saved now: a gatherer stopped at a fault has a record that is pending or waits for a slot (R308, R313); nothing
is read or written in a relock (R13). -/
def State.savable (s : State) (k g : Nat) : Bool :=
  let gr := (s.core k).group g
  let d := dieOfCore k
  gr.saving && !s.groupBusy k g
  && gr.slots.all (fun i =>
    let t := s.team k i
    let here := match t.wait with | some w => w.fly | none => 0
    (t.park || t.st == 4 || t.st == 5 || t.st == 2) && t.flt.win.isNone && !(t.flt.pf && t.flt.handle == 0) && t.fly.all (fun f => f.id == here))
  && gr.gaths.all (fun j => !(s.gath k j).halt)
  && (List.range 4).all (fun x => !(s.die x).fq.recs.any (fun r =>
    r.pend && [1, 2, 3].contains r.agent && r.gref == gr.gref)) && decide (d < 4) && !s.relocks k

/-- A wait at which a team is saved is withdrawn: its flag falls without completing it (R50). -/
def Team.withdraw (t : Team) : Team :=
  match t.wait with
  | none => t
  | some w => (t.fly.filter (fun f => f.id == w.fly)).foldl (fun t f => t.unsignal f.flag) t

/-- Bytes with their condition written to physical memory by the device. -/
def State.pokeBB (s : State) (pa : Nat) (bs : List BB) : State :=
  let s := s.poke pa (bs.map Prod.fst)
  (bs.zip (List.range bs.length)).foldl (fun s e =>
    if e.1.2 && (regionOf s.ddr (pa + e.2)).plain then s.onMem (fun m => m.spoil (pa + e.2)) else s) s

/-- Teams of a group go on from where they parked: the group is not saved (R392). -/
def State.unpark (s : State) (k g : Nat) : State :=
  let s := s.onGroup k g (fun gr => { gr with saving := false })
  ((s.core k).group g).slots.foldl (fun s i => s.onTeam k i (fun t =>
    if t.park then { t with park := false, path := loopBack t.path.pc { t.path with pc := nextPc t.path.pc } } else t)) s

/-- The PREEMPT command ends when no group of its task is left to save on the die: its status and BUSY (R400). -/
def State.preemptEnd (s : State) (d : Nat) : State :=
  let c := (s.die d).cmd
  let left := s.cores.any (fun x => decide (dieOfCore x.1 = d) && x.2.resident.any (fun g => g.2.saving))
  if c.saving && !left then
    let w := natBits c.preempt.toNat 0 168 + (if c.small then 2 ^ 253 else 0)
    s.onDie d (fun x => { x with cmd := { x.cmd with saving := false, preempt := BitVec.ofNat 256 w } })
  else s

/-- The status bits of the promotions that saving the tiles makes (R85): set in the teams of the matrix role of the group that holds the
array, since no rule names the team (log 116). -/
def State.promotedFlags (s : State) (k g : Nat) : State :=
  let gr := (s.core k).group g
  let f := (List.range 16).foldl (fun a i => a ||| ((s.core k).tile i).promote.2) 0
  if !gr.mtx then s
  else (gr.slots.filter (fun i => (s.team k i).id.role == 2)).foldl (fun s i =>
    s.onTeam k i (Team.onRegs · (fun r => { r with tstat := r.tstat ||| BitVec.ofNat 32 f }))) s

/-- GROUP_SAVE (R392). -/
def execGroupSave (core grp : Nat) (s : State) : Out :=
  onRunning core s (
    if !s.savable core grp then s
    else
      let d := dieOfCore core
      let gr := (s.core core).group grp
      let cmd := (s.die d).cmd
      let area := natBits cmd.preempt.toNat 0 64 / 256 * 256
      let len := natBits cmd.preempt.toNat 64 64
      let here := s
      let s := if s.savesTiles core grp then s.promotedFlags core grp else s
      let s := gr.slots.foldl (fun s i => s.onTeam core i Team.withdraw) s
      let img := s.image core grp
      if len < cmd.saveOff + img.length then
        let s := here.unpark core grp
        (s.onDie d (fun x => { x with cmd := { x.cmd with small := true } })).preemptEnd d
      else
        let s := s.pokeBB (area + cmd.saveOff) img
        let s := s.poke (area + 8 + 8 * cmd.saveCnt) (leBytes 8 cmd.saveOff)
        let s := s.poke area (leBytes 4 (cmd.saveCnt + 1))
        let s := s.onDie d (fun x => { x with cmd :=
          { x.cmd with saveOff := cmd.saveOff + img.length, saveCnt := cmd.saveCnt + 1 } })
        let s := s.onTask gr.tag (fun t => { t with saved := t.saved ++ [gr.gidx] })
        let s := s.emit core 0x0F (gr.slots.headD 0) gr.tenant gr.gref.toNat true
        (s.freeGroup core grp).preemptEnd d)

/-! Restoring (R394). -/

/-- The parts of an image: offsets of its parts from its counts. -/
structure ImageMap where
  hdr : BitVec 512
  gref : Word
  tag : Nat
  nbar : Nat
  nldt : Nat
  npat : Nat
  ngath : Nat
  tiles : Bool
  size : Nat
  bars : Nat
  queues : Nat
  ldts : Nat
  pats : Nat
  slots : Nat
  gaths : Nat
  tileAt : Nat
  teams : Nat
deriving DecidableEq, Repr

/-- Size of a part after padding. -/
def padded (n : Nat) : Nat := (n + 255) / 256 * 256

def imageMap (bs : List BB) : ImageMap :=
  let nbar := rdBB bs 79 1
  let nldt := rdBB bs 80 2
  let npat := rdBB bs 82 1
  let ngath := rdBB bs 83 1
  let tiles := rdBB bs 78 1 == 1
  let bars := 256
  let queues := bars + padded (8 * nbar)
  let ldts := queues + padded 64
  let pats := ldts + padded (72 * nldt)
  let slots := pats + padded (72 * npat)
  let gaths := slots + padded 256
  let tileAt := gaths + padded (512 * ngath)
  { hdr := BitVec.ofNat 512 (rdBB bs 0 64), gref := BitVec.ofNat 64 (rdBB bs 64 8), tag := rdBB bs 88 8
    nbar, nldt, npat, ngath, tiles, size := rdBB bs 74 4, bars, queues, ldts, pats, slots, gaths, tileAt
    teams := tileAt + (if tiles then padded (16392 * 16) else 0) }

/-- Whether the header of an image agrees with itself (R400, status 1). -/
def ImageMap.ok (m : ImageMap) (bs : List BB) : Bool :=
  hShapeOk m.hdr && rdBB bs 72 1 == hT m.hdr && rdBB bs 73 1 == hN m.hdr / 32 && m.size == hAlloc m.hdr && m.nbar == hNbar m.hdr
  && m.ngath == (hBound m.hdr).length && m.gref == grefOf m.tag (m.gref.toNat / 2 ^ 32)

/-- Bytes of memory with their condition. -/
def State.readBB (s : State) (pa n : Nat) : List BB := (List.range n).map (fun i => (s.mem.byte (pa + i), s.mem.isBad (pa + i)))

/-- The size of a team block at an offset of an image. -/
def blockSize (bs : List BB) (o n : Nat) : Nat :=
  let st := rdBB bs o 64
  let o2 := 840 + 24 * natBits st 250 3 + 96
  let live := rdBB bs (o + o2 + 32) 4
  o2 + 44 + 160 * natBits st 253 6 + n + 128 * n + 32 * n + live * n * 8 + live * n / 8

/-- Offsets of the team blocks, and of the allocation after them. -/
def blockOffsets (bs : List BB) (n : Nat) : Nat → Nat → List Nat
  | 0, o => [o]
  | t + 1, o => o :: blockOffsets bs n t (o + padded (blockSize bs o n))

/-- The whole image at an address: its header gives its length, which stays below 8 MiB. -/
def State.imageAt (s : State) (pa : Nat) : List BB := s.readBB pa (min (2 ^ 23) (s.mem.readLe (pa + 84) 4))

/-- Entry numbers that an image needs (R164, R173): LDT and pattern entries. -/
def ImageMap.entries (m : ImageMap) (bs : List BB) : List Nat × List Nat :=
  ((List.range m.nldt).map (fun i => rdBB bs (m.ldts + 72 * i) 1), (List.range m.npat).map (fun i => rdBB bs (m.pats + 72 * i) 1))

/-- Whether the entry numbers of an image are free on a core. -/
def State.entriesFree (s : State) (k : Nat) (e : List Nat × List Nat) : Bool :=
  let c := s.core k
  e.1.all (fun i => !(Tbl.get {} c.tabs.ldt i).lv) && e.2.all (fun i => !(Tbl.get {} c.tabs.pats i).lv)

/-- A weight slot reloaded from its recorded operands (R394). -/
def State.reloadSlot (s : State) (k g n : Nat) (a b c : Word) : State :=
  let gr := (s.core k).group g
  let x := c.toNat
  let code := natBits x 0 4
  let spar := natBits x 4 2
  let nb := natBits x 8 9
  let size := 4 * nb * wRecord code spar
  match s.loadImage gr.tenant k a.toNat b.toNat code spar (4 * nb) (List.range ((size + 251) / 252)) [] with
  | .ok bs => s.onSlot k n (fun _ =>
      { valid := true, spar, fmt := code, nb, data := byteTable (bs.take size), opA := a, opB := b, opC := c })
  | .error (ch, r) =>
    let cmd : MatCmd := { op := .none_, iss := { slot := g, grp := g, gref := gr.gref, tag := gr.tag, tenant := gr.tenant } }
    s.wbRecord k cmd n a.toNat ch r

/-- A record resolved while its group was saved acts on the restored team; one still pending concerns it at its new place (R383). -/
def State.applyActs (s : State) (k i : Nat) : State :=
  let t := s.team k i
  if !t.flt.pf then s
  else
    let d := t.flt.hdie
    let mine := fun (a : Nat × Word × Nat) => a.1 == t.flt.handle.toNat && a.2.1 == t.id.gref
    match (s.die d).fq.acts.find? mine with
    | none => s.onDie d (fun x => { x with fq := { x.fq with recs := x.fq.recs.map (fun r =>
        if r.handle == t.flt.handle then { r with core := k, unit := i, tslot := i } else r) } })
    | some (_, _, code) =>
      let s := s.onDie d (fun x => { x with fq := { x.fq with acts := x.fq.acts.filter (fun a => !mine a) } })
      s.resumeTeam k i (code % 4) (if code / 4 = 0 then none else some (code / 4 - 1))

/-- Whether a saved group may be put back in a cluster (R21, R361): beside the groups of its cluster set that are resident; where there is
none, in a cluster whose cluster barriers that it needs are free. -/
def State.setFits (s : State) (d cl : Nat) (m : ImageMap) : Bool :=
  let h := m.hdr
  let set := m.gref.toNat / 2 ^ 32 / hSet h
  let mates := s.cores.flatMap (fun c => (c.2.resident.filter (fun g => g.2.tag == m.tag && g.2.gidx / hSet h == set)).map (fun _ => c.1))
  hCl h == 0 ||
    match mates with
    | [] => (List.range 8).all (fun b => !hCbm h b || Tbl.get 0 (s.die d).cbHeld (8 * cl + b) == 0)
    | _ => mates.all (fun k => dieOfCore k == d && clusterOf k == cl)

/-- The cluster barriers of a set held by one more of its groups that is put back; the first one brings them back as they stood. -/
def State.rejoinCbs (s : State) (k cl tag g : Nat) (h : BitVec 512) : State :=
  (List.range 8).foldl (fun s b =>
    if !hCbm h b then s
    else
      let key := 8 * cl + b
      let kept := Tbl.get ({} : Bar) (s.task tag).cbs (8 * (g / hSet h) + b)
      s.onDie (dieOfCore k) (fun d =>
        { d with cbHeld := Tbl.upd 0 d.cbHeld key (· + 1)
                 cbars := if Tbl.get 0 d.cbHeld key = 0 then Tbl.set {} d.cbars key kept else d.cbars })) s

/-- A saved group put back on a core with room (R394). -/
def State.restoreGroup (s : State) (k : Nat) (bs : List BB) (m : ImageMap) (r : Room) : State :=
  let h := m.hdr
  let tag := m.tag
  let g := m.gref.toNat / 2 ^ 32
  let low := r.slots.headD 0
  let tk := s.task tag
  let cyc := (s.die (dieOfCore k)).clk.cyc.toNat
  let old := (List.range 16).map (fun i => rdBB bs (96 + i) 1)
  let s := s.placeGroup k tag g h r
  let offs := blockOffsets bs (hN h) (hT h) m.teams
  let s := s.onGroup k low (fun gr =>
    { gr with queues := tblOf 0 (List.range 8) (fun q => BitVec.ofNat 64 (rdBB bs (m.queues + 8 * q) 8)) })
  let s := (List.range m.nbar).foldl (fun s b =>
    let x := Bar.ofWord (rdBB bs (m.bars + 8 * b) 8)
    let x := { x with arrm := (x.arrm.map (fun i => r.slots.getD (old.idxOf i) i)).foldr insertAsc [] }
    s.onNbar k (r.bbase + b) (fun _ => x)) s
  let s := (List.range m.nldt).foldl (fun s i =>
    let o := m.ldts + 72 * i
    let n := rdBB bs o 1
    let e : Ldt := { ({ img := BitVec.ofNat 512 (rdBB bs (o + 3) 64) } : Ldt).withCtl (rdBB bs (o + 1) 2) with hold := low }
    s.onTabs k (fun t => { t with ldt := Tbl.set {} t.ldt n e, meta_ := t.meta_.filter (fun l => l.1 / 2 ^ 48 ≠ n) })) s
  let s := (List.range m.npat).foldl (fun s i =>
    let o := m.pats + 72 * i
    let e : Pat := { ({ img := BitVec.ofNat 512 (rdBB bs (o + 3) 64) } : Pat).withCtl (rdBB bs (o + 1) 2) with hold := low }
    s.onTabs k (fun t => { t with pats := Tbl.set {} t.pats (rdBB bs o 1) e })) s
  let s := (List.range m.ngath).foldl (fun s i =>
    let blk := (bs.drop (m.gaths + 512 * i)).take 512
    s.onGath k (r.gaths.getD i 0) (fun _ => Gatherer.ofBlock blk r.slots low)) s
  let s := if m.tiles && hMtx h then (List.range 16).foldl (fun s a =>
      s.onTile k a (fun _ => Tile.ofBlock ((bs.drop (m.tileAt + 16392 * a)).take 16392))) s else s
  let s := (r.slots.zip (List.range r.slots.length)).foldl (fun s x =>
    let id := { teamIdOf h tk tag g x.2 low (r.lanes.getD x.2 0) (r.rows.getD x.2 0) with grp := low, start := 0 }
    s.setTeam k x.1 (Team.ofBlock (bs.drop (offs.getD x.2 0)) id cyc)) s
  let base := winBase k + r.base
  let s := s.pokeBB base ((bs.drop (offs.getD (hT h) 0)).take m.size)
  let s := (List.range 8).foldl (fun s n =>
    let o := m.slots + 32 * n
    if rdBB bs o 8 = 0 then s
    else s.reloadSlot k low n (BitVec.ofNat 64 (rdBB bs (o + 8) 8)) (BitVec.ofNat 64 (rdBB bs (o + 16) 8)) (BitVec.ofNat 64 (rdBB bs (o + 24) 8))) s
  let s := match ((s.core k).group low).cluster with
    | none => s
    | some cl => s.rejoinCbs k cl tag g h
  let s := s.onTask tag (fun t => { t with saved := t.saved.erase g })
  let s := s.emit k 0x10 low tk.tenant m.gref.toNat true
  r.slots.foldl (fun s i => s.applyActs k i) s

end Sys2Proof.Machine
end

