-- ==== Sys2Proof/Machine/Schedule.lean ====
section
/-! DEFINITION. Dispatch, stealing, kills, pre-emption and the resolution of records (13 R300 to R306, R313; 17 R384 to R394;
18 R400). -/

namespace Sys2Proof.Machine

/-! The dispatcher (R304). -/

/-- The record at HEAD of a queue, with the class and tenant of the queue (R303). -/
def State.headRecord (s : State) (q : Nat) : BitVec 512 :=
  let t := s.tq q
  let x := s.mem.readLe (t.slot t.head) 64
  BitVec.ofNat 512 (x - natBits x 345 10 * 2 ^ 345 + t.cls % 4 * 2 ^ 345 + t.tenant % 256 * 2 ^ 347)

/-- Whether the record at HEAD of a queue may be taken (R304, R361, R365). -/
def State.eligible (s : State) (q : Nat) : Bool :=
  let t := s.tq q
  let h := s.headRecord q
  t.en && !t.pull && t.count != 0
  && (match hWaitc h with | none => true | some i => (s.dc i).owner != t.tenant || (s.dc i).val == 0)
  && (List.range 4).all (fun k => !hGbm h k || (Tbl.get {} s.io.grids k).holder.isNone)

/-- What the dispatcher may work on: an active task by its tag, or the record of a queue. -/
inductive Cand where
  | task (tag : Nat)
  | record (q : Nat)
deriving DecidableEq, Repr

/-- Candidates with their rank, least first (R304). -/
def State.cands (s : State) (d : Nat) : List ((Nat × Nat × Nat) × Cand) :=
  let p := (s.die d).disp
  let act := (p.active.filter (fun a => !p.paused.contains a.tag)).map (fun a => (((s.task a.tag).cls, 0, a.taken), Cand.task a.tag))
  let qs := if p.active.length < 16 then ((List.range 64).map (fun i => 64 * d + i)).filter s.eligible else []
  act ++ qs.map (fun q => (((s.tq q).cls, 1, (q % 64 + 64 - (p.lastQ + 1) % 64) % 64), Cand.record q))

/-- Lexicographic order of ranks. -/
def rankLt (a b : Nat × Nat × Nat) : Bool :=
  decide (a.1 < b.1 ∨ (a.1 = b.1 ∧ (a.2.1 < b.2.1 ∨ (a.2.1 = b.2.1 ∧ a.2.2 < b.2.2))))

/-- The candidate of least rank. -/
def bestCand : List ((Nat × Nat × Nat) × Cand) → Option ((Nat × Nat × Nat) × Cand)
  | [] => none
  | x :: xs => match bestCand xs with
    | none => some x
    | some y => if rankLt y.1 x.1 then some y else some x

/-- A record of the dispatcher (R378): task tag, function and case. -/
def State.dispatchRecord (s : State) (d tag fn case code tenant : Nat) : State :=
  let r : RecHead := { code, agent := 5, tenant, body := tag * 2 ^ 216 + fn * 2 ^ 208 + case * 2 ^ 200 }
  (s.record d r [] { agent := 5, core := 0xFF, code }).1

/-- The record at HEAD of a queue taken (R299, R304, R305): rejected, completed in error by its wait counter, or active. -/
def State.takeRecord (s : State) (d q : Nat) : State :=
  let t := s.tq q
  let h := s.headRecord q
  let tag := q * 2 ^ 32 + t.head.toNat
  let enq := Tbl.get 0 t.times t.head.toNat
  let tk : Task := { live := true, hdr := h, queue := q, die := d, enq := enq, prv := t.prv, cls := t.cls, tenant := t.tenant }
  let s := s.takeHead q
  let s := s.onDie d (fun x => { x with disp := { x.disp with lastQ := q % 64 } })
  let s := s.taskDispatched d tag t.cls t.tenant
  let failed := match hWaitc h with | none => false | some i => (s.dc i).err
  match s.malformed h t.tenant with
  | some case =>
    let s := s.dispatchRecord d tag 0xFF case 0x27 t.tenant
    (s.taskRetired d tag t.tenant true).signalTask h true
  | none =>
    if failed then (s.taskRetired d tag t.tenant true).signalTask h true
    else
      let s := { s with tasks := Tbl.set {} s.tasks tag tk }
      let s := (List.range 4).foldl (fun s k =>
        if hGbm h k then s.onGrid k (fun g => { g with holder := some tag, bar := g.bar.taken (g.members.any s.io.down.contains) }) else s) s
      s.onDie d (fun x => { x with disp :=
        { x.disp with takes := x.disp.takes + 1
                      active := x.disp.active ++ [{ tag, lo := 0, hi := hGroups h, taken := x.disp.takes }] } })

/-- The cores of a die in search order, after the last placement (R304). -/
def searchCores (d last : Nat) : List Nat := (List.range 48).map (fun i => 48 * d + (last + 1 + i) % 48)

/-- The first core of a list with room. -/
def State.coreWithRoom (s : State) (h : BitVec 512) (ks : List Nat) : Option (Nat × Room) :=
  ks.findSome? (fun k => (s.room k h).map (fun r => (k, r)))

/-- A group placed with its event. -/
def State.placeNew (s : State) (k tag g : Nat) (h : BitVec 512) (r : Room) : State :=
  (s.placeGroup k tag g h r).emit k 0x0B (r.slots.headD 0) (s.task tag).tenant (grefOf tag g).toNat true

/-- The groups of a cluster set placed in one cluster, in ascending index, the search going on after the core before (R304); with the place
in its cluster of the core after the last one used. -/
def State.placeSet (s : State) (d c tag : Nat) (h : BitVec 512) : List Nat → Nat → Option (State × Nat)
  | [], after => some (s, after)
  | g :: gs, after =>
    match s.coreWithRoom h ((List.range 8).map (fun i => 48 * d + 8 * c + (after + i) % 8)) with
    | none => none
    | some (k, r) => State.placeSet (s.placeNew k tag g h r) d c tag h gs (k % 8 + 1)

/-- Whether the cluster barriers that a header needs are free in a cluster (R361). -/
def State.cbFree (s : State) (d c : Nat) (h : BitVec 512) : Bool :=
  (List.range 8).all (fun b => !hCbm h b || Tbl.get 0 (s.die d).cbHeld (8 * c + b) == 0)

/-- The cluster barriers of a placed set are its own: cleared, with every team of the set a participant (R361, R362). -/
def State.holdCbs (s : State) (d c : Nat) (h : BitVec 512) : State :=
  (List.range 8).foldl (fun s b =>
    if hCbm h b then s.onDie d (fun x =>
      { x with cbHeld := Tbl.set 0 x.cbHeld (8 * c + b) (hSet h)
               cbars := Tbl.set {} x.cbars (8 * c + b) { count := hSet h * hT h } })
    else s) s

/-- The dispatcher's next placement for an active task (R304, R394); nothing while no core has room. -/
def State.placeNext (s : State) (d : Nat) (a : Active) : State :=
  let h := (s.task a.tag).hdr
  let p := (s.die d).disp
  let upd := fun (s : State) (f : Active → Active) => s.onDie d (fun x => { x with disp := { x.disp with
    active := (x.disp.active.map (fun y => if y.tag == a.tag then f y else y)).filter (fun y => decide (y.lo < y.hi) || !y.images.isEmpty) } })
  match a.images with
  | pa :: _ =>
    let bs := s.imageAt pa
    let m := imageMap bs
    match (searchCores d p.lastCore).findSome? (fun k =>
        if s.entriesFree k (m.entries bs) && s.setFits d (clusterOf k) m then (s.room k m.hdr).map (fun r => (k, r)) else none) with
    | none => s
    | some (k, r) =>
      let s := s.restoreGroup k bs m r
      let s := s.onDie d (fun x => { x with disp :=
        { x.disp with lastCore := k % 48, lastClus := if hCl m.hdr = 0 then x.disp.lastClus else clusterOf k } })
      upd s (fun y => { y with images := y.images.drop 1 })
  | [] =>
    if hCl h = 0 then
      match s.coreWithRoom h (searchCores d p.lastCore) with
      | none => s
      | some (k, r) =>
        let s := s.placeNew k a.tag a.lo h r
        let s := s.onDie d (fun x => { x with disp := { x.disp with lastCore := k % 48 } })
        upd s (fun y => { y with lo := y.lo + 1 })
    else
      let gs := (List.range (hSet h)).map (fun i => a.lo + i)
      match ((List.range 6).map (fun i => (p.lastClus + 1 + i) % 6)).findSome? (fun c =>
          if s.cbFree d c h then (s.placeSet d c a.tag h gs 0).map (fun r => (c, r.1, r.2)) else none) with
      | none => s
      | some (c, s, after) =>
        let s := s.holdCbs d c h
        let s := s.onDie d (fun x => { x with disp := { x.disp with lastClus := c, lastCore := 8 * c + (after + 7) % 8 } })
        upd s (fun y => { y with lo := y.lo + hSet h })

/-- DISPATCH_STEP (R304); the fabric port of a die in a relock takes none of its reads (R13, log 133). -/
def execDispatchStep (die : Nat) (s : State) : Out :=
  onUnit "die" die 4 (
    if (s.die die).frozen || s.ctrl.power != 0 || (s.die die).clk.relock.isSome then s
    else match bestCand (s.cands die) with
      | none => s
      | some (_, .record q) => s.takeRecord die q
      | some (_, .task tag) =>
        match (s.die die).disp.active.find? (fun a => a.tag == tag) with
        | none => s
        | some a => s.placeNext die a)

/-- The tag of a task by its queue and take index (R319). -/
def tagOf (q take : Nat) : Nat := q * 2 ^ 32 + take

/-- START_TIME_REACHED (R305): the teams of a task may issue; STALL still counts from dispatch (R87). -/
def execStartTimeReached (q take : Nat) (s : State) : Out :=
  onUnit "queue" q 256 (
    let tag := tagOf q take
    if s.time < hStart (s.task tag).hdr then s
    else s.cores.foldl (fun s c => (List.range 16).foldl (fun s i =>
      let t := s.team c.1 i
      if t.st ≠ 0 ∧ t.id.tag = tag ∧ t.id.start ≠ 0 then
        s.onTeam c.1 i (fun t => { t with id := { t.id with start := 0 } })
      else s) s) s)

/-- TASK_COMPLETION (R305): the last group of the task has been freed on every die. -/
def execTaskCompletion (q take : Nat) (s : State) : Out :=
  onUnit "queue" q 256 (
    let tag := tagOf q take
    if (s.task tag).live && !s.taskBusy tag then s.completeTask tag else s)

/-! Stealing (R306). -/

/-- Whether a die sits idle. -/
def State.idle (s : State) (d : Nat) : Bool :=
  !(s.cores.any (fun c => decide (dieOfCore c.1 = d) && !c.2.resident.isEmpty)) && (s.die d).disp.active.isEmpty
  && !((List.range 64).any (fun i => s.eligible (64 * d + i)))

/-- The moment since which a die sits idle, kept up to date. -/
def State.noteIdle (s : State) (d : Nat) : State :=
  let now := if s.idle d then some ((s.die d).disp.idle.getD s.time) else none
  if (s.die d).disp.idle = now then s else s.onDie d (fun x => { x with disp := { x.disp with idle := now } })

/-- What a thief may take: the enqueue time, then the tie-break of R306, with the victim and what is stolen. -/
structure Loot where
  age : Nat
  victim : Nat
  fresh : Nat
  ord : Nat
  cand : Cand
deriving DecidableEq, Repr

def Loot.before (a b : Loot) : Bool :=
  decide (a.age < b.age ∨ (a.age = b.age ∧ (a.victim < b.victim ∨ (a.victim = b.victim
    ∧ (a.fresh < b.fresh ∨ (a.fresh = b.fresh ∧ a.ord < b.ord))))))

/-- Tasks of a die that can be split (R306). -/
def State.lootOf (s : State) (d : Nat) : List Loot :=
  let p := (s.die d).disp
  let act := p.active.filter (fun a => !p.paused.contains a.tag && decide (2 * hSet (s.task a.tag).hdr ≤ a.hi - a.lo))
  let qs := if p.active.length < 16 then ((List.range 64).map (fun i => 64 * d + i)).filter (fun q =>
    let h := s.headRecord q
    s.eligible q && (s.malformed h (s.tq q).tenant).isNone
    && (match hWaitc h with | some i => !(s.dc i).err | none => true) && decide (2 * hSet h ≤ hGroups h)) else []
  act.map (fun a => { age := (s.task a.tag).enq, victim := d, fresh := 0, ord := a.taken, cand := .task a.tag })
  ++ qs.map (fun q => { age := Tbl.get 0 (s.tq q).times (s.tq q).head.toNat, victim := d, fresh := 1, ord := q, cand := .record q })

def bestLoot : List Loot → Option Loot
  | [] => none
  | x :: xs => match bestLoot xs with
    | none => some x
    | some y => if y.before x then some y else some x

/-- The range of an active task split between victim and thief. -/
def State.split (s : State) (victim thief tag : Nat) : State :=
  match (s.die victim).disp.active.find? (fun a => a.tag == tag) with
  | none => s
  | some a =>
    let u := hSet (s.task tag).hdr
    let m := a.lo + u * ((a.hi - a.lo + 2 * u - 1) / (2 * u))
    let s := s.onDie victim (fun x => { x with disp := { x.disp with
      active := x.disp.active.map (fun y => if y.tag == tag then { y with hi := m } else y) } })
    s.onDie thief (fun x => { x with disp := { x.disp with
      takes := x.disp.takes + 1, active := x.disp.active ++ [{ tag, lo := m, hi := a.hi, taken := x.disp.takes }] } })

/-- STEAL (R306): a die that has sat idle for the steal delay. -/
def execSteal (die : Nat) (s : State) : Out :=
  onUnit "die" die 4 (
    let p := (s.die die).disp
    match p.idle with
    | none => s
    | some t0 =>
      if p.steal = 0 ∨ s.time < t0 + p.steal ∨ (s.die die).frozen ∨ s.ctrl.power ≠ 0 then s
      else
        match bestLoot ((((List.range 4).filter (fun d => d != die && !(s.die d).frozen)).map s.lootOf).flatten) with
        | none => s
        | some l =>
          match l.cand with
          | .task tag => s.split l.victim die tag
          | .record q =>
            let tag := q * 2 ^ 32 + (s.tq q).head.toNat
            (s.takeRecord l.victim q).split l.victim die tag)

/-! The fault queue (R313, R384). -/

/-- The information the device keeps of a record, read from its first slot (R377). -/
def recInfo (w : BitVec 512) (p : PendRec) (live : Bool) : RecInfo :=
  let code := recBits w 312 8
  let agent := recBits w 301 3
  let pend := w.getLsbD 300 && live
  { pend, counted := pend && counts agent code, agent, core := p.core, unit := p.unit, code
    gref := BitVec.ofNat 64 (recBits w 384 64), rpm := recBits w 267 11 }

/-- Whether the agent that a waiting record stopped is still stopped for it. -/
def State.stillStopped (s : State) (p : PendRec) (gref : Word) : Bool :=
  match p.who with
  | 0 => let t := s.team p.core p.unit; t.id.gref == gref && t.flt.pf && t.flt.handle == 0
  | 1 => let g := s.gath p.core p.unit; g.halt && g.handle == 0
  | 2 => (s.core p.core).copies.any (fun c => c.id == p.unit && c.pend)
  | 3 => match (s.core p.core).mat.drain with | some d => d.pend | none => false
  | _ => false

/-- The first waiting record written if the ring has room (R313); whether it was. -/
def State.writeOne (s : State) (d : Nat) : State × Bool :=
  let q := (s.die d).fq
  match q.waiting with
  | [] => (s, false)
  | p :: rest =>
    if !q.en || decide (1024 < q.used + p.words.length) then (s, false)
    else
      match p.words with
      | [] => (s.onDie d (fun x => { x with fq := { x.fq with waiting := rest } }), true)
      | w :: conts =>
        let gref := BitVec.ofNat 64 (recBits w 384 64)
        let live := s.stillStopped p gref
        let info := recInfo w p live
        let w := if live then w else w &&& ~~~(1#512 <<< 300)
        let s := s.onDie d (fun x => { x with fq := { x.fq with waiting := rest } })
        let hd : RecHead := { code := info.code, pend := info.pend, agent := info.agent, tenant := recBits w 292 8, core := recBits w 284 8
                              tslot := recBits w 280 4, nrpm := info.rpm }
        let (s, h) := s.writeWords d w conts info hd.tenant
        if p.defer then (s, true)
        else
          let s := s.faultEvent d hd h
          let hw : Word32 := BitVec.ofNat 32 h
          let s := if !live then s else match p.who with
            | 0 => s.onTeam p.core p.unit (fun t => { (t.complete t.flt.winFly) with flt := { t.flt with handle := hw, hdie := d } })
            | 1 => s.onGath p.core p.unit (fun g => { g with handle := hw })
            | 2 => s.onCopy p.core p.unit (fun c => { c with handle := hw, hdie := d })
            | _ => s
          (s, true)

/-- Waiting records written while the ring has room. -/
def State.writeWaiting (s : State) (d : Nat) : Nat → State
  | 0 => s
  | n + 1 =>
    let (s, more) := s.writeOne d
    if more then State.writeWaiting s d n else s

/-- DEFERRED_RECORD_WRITE (R313). -/
def execDeferredRecordWrite (die : Nat) (s : State) : Out :=
  onUnit "die" die 4 (s.writeWaiting die ((s.die die).fq.waiting.length))

/-! Commands of the queue block (R400). -/

def State.onCmd (s : State) (d : Nat) (f : CmdWords → CmdWords) : State := s.onDie d (fun x => { x with cmd := f x.cmd })

/-- RESOLVE (R384, R400). A reserved field reads zero (R4). -/
def execResolve (die : Nat) (word : Word) (s : State) : Out :=
  onUnit "die" die 4 (
    let w := word.toNat
    let put := fun (s : State) (status : Nat) =>
      s.onCmd die (fun c => { c with resolve := BitVec.ofNat 64 (natBits w 0 34 + status * 2 ^ 62) })
    if natBits w 34 28 ≠ 0 ∨ !word.getLsbD 63 then put s (natBits (s.die die).cmd.resolve.toNat 62 1)
    else
      let found := (s.die die).fq.recs.any (fun r => r.pend && r.handle.toNat == natBits w 0 32)
      put (s.resolve die (natBits w 0 32) (natBits w 32 2) 1) (!found).toNat)

/-- The wait of a team ended by a kill: status 3, with the events of its end (R310, R320, R387). -/
def State.killWait (s : State) (k i : Nat) : State :=
  match (s.team k i).wait with
  | none => s
  | some w =>
    let s := match w.kind with
      | .pop peek q _ _ _ =>
        let a : State := { s with cur := .team k i }
        { a.qop (if peek then 4 else 3) q 3 0 (qHead (a.aq q)) with cur := s.cur }
      | _ => s
    s.finishWait k i w 3

/-- A team of a killed task: its wait ends and it halts (R387). -/
def State.killTeam (s : State) (k i : Nat) : State :=
  let t := s.team k i
  if t.st = 1 ∨ t.st = 2 then (s.killWait k i).haltTeam k i 3 else s

/-- A task killed (R387): nothing of it is placed or resumed again, its resident teams halt, its records are resolved. -/
def State.killTask (s : State) (tag : Nat) : State :=
  let low := (grefOf tag 0).toNat % 2 ^ 32
  let s := (List.range 4).foldl (fun s d => s.onDie d (fun x => { x with disp := { x.disp with
    active := x.disp.active.filter (fun a => a.tag != tag), paused := x.disp.paused.filter (· != tag) } })) s
  let s := s.onTask tag (fun t => { t with err := true, killed := true, saved := [] })
  let s := s.cores.foldl (fun s c => (List.range 16).foldl (fun s i =>
    if (s.team c.1 i).st ≠ 0 ∧ (s.team c.1 i).id.tag = tag then s.killTeam c.1 i else s) s) s
  (List.range 4).foldl (fun s d => s.clearPend d (fun r => r.gref.toNat % 2 ^ 32 == low && decide (r.agent < 4))) s

/-- The KILL command word after a kill with a status (R400). -/
def killWord (w status : Nat) : BitVec 128 := BitVec.ofNat 128 (natBits w 0 40 + status * 2 ^ 125)

/-- KILL (R387, R400). -/
def execKill (die : Nat) (word : BitVec 128) (s : State) : Out :=
  onUnit "die" die 4 (
    let w := word.toNat
    let st := natBits (s.die die).cmd.kill.toNat 125 2
    let tag := natBits w 0 40
    if natBits w 40 85 ≠ 0 ∨ !word.getLsbD 127 then s.onCmd die (fun c => { c with kill := killWord w st })
    else if !(s.task tag).live then s.onCmd die (fun c => { c with kill := killWord w 1 })
    else
      let s := s.killTask tag
      let s := s.onCmd die (fun c => { c with kill := killWord w 0 })
      if s.taskBusy tag then s else s.completeTask tag)

/-- A die places no group of a task until a resume (R391). -/
def State.pauseTask (s : State) (d tag : Nat) : State :=
  s.onDie d (fun x => { x with disp := { x.disp with paused := tag :: x.disp.paused.filter (· != tag) } })

/-- PREEMPT (R391, R400): the task is paused also where it has no group on the die (log 60). -/
def execPreempt (die : Nat) (word : BitVec 256) (s : State) : Out :=
  onUnit "die" die 4 (
    let w := word.toNat
    let c := (s.die die).cmd
    let st := natBits c.preempt.toNat 253 2
    let put := fun (busy status : Nat) => BitVec.ofNat 256 (natBits w 0 168 + status * 2 ^ 253 + busy * 2 ^ 255)
    let tag := natBits w 128 40
    let gs := s.cores.flatMap (fun x => if dieOfCore x.1 = die then (x.2.resident.filter (fun g => g.2.tag == tag)).map (fun g => (x.1, g.1)) else [])
    if c.saving then s
    else if natBits w 168 85 ≠ 0 ∨ !word.getLsbD 255 then s.onCmd die (fun c => { c with preempt := put 0 st })
    else
      let s := if (s.task tag).live then s.pauseTask die tag else s
      if gs.isEmpty then s.onCmd die (fun c => { c with preempt := put 0 2 }) else
      let area := natBits w 0 64 / 256 * 256
      let dir := padded (8 + 8 * gs.length)
      let s := if dir ≤ natBits w 64 64 then s.poke area (List.replicate dir 0) else s
      let s := s.onCmd die (fun c => { c with preempt := put 1 st, saving := true, saveOff := dir, saveCnt := 0, small := false })
      gs.foldl (fun s g => s.onGroup g.1 g.2 (fun gr => { gr with saving := true })) s)

/-- The images of a save area (R393), or none for a malformed directory. -/
def State.directory (s : State) (area : Nat) : Option (List Nat) :=
  let n := s.mem.readLe area 4
  if n = 0 ∨ 768 < n ∨ s.mem.readLe (area + 4) 4 ≠ 0 then none
  else
    let offs := (List.range n).map (fun i => s.mem.readLe (area + 8 + 8 * i) 8)
    if offs.all (fun o => o % 256 == 0 && decide (8 + 8 * n ≤ o)) then some (offs.map (area + ·)) else none

/-- RESUME (R394, R400). -/
def execResume (die : Nat) (word : BitVec 128) (s : State) : Out :=
  onUnit "die" die 4 (
    let w := word.toNat
    let st := natBits (s.die die).cmd.resume.toNat 125 2
    let put := fun (status : Nat) => s.onCmd die (fun c => { c with resume := BitVec.ofNat 128 (natBits w 0 64 + status * 2 ^ 125) })
    if natBits w 64 61 ≠ 0 ∨ !word.getLsbD 127 then put st
    else
      match s.directory (natBits w 0 64) with
      | none => put 1
      | some pas =>
        let ms := pas.map (fun pa => let bs := s.readBB pa 256; (imageMap bs, bs))
        match ms with
        | [] => put 1
        | (m0, _) :: _ =>
          let tk := s.task m0.tag
          let gs : List Nat := ms.map (fun m => m.1.gref.toNat / 2 ^ 32)
          if !ms.all (fun m => m.1.tag == m0.tag && m.1.ok m.2) || !decide gs.Nodup then put 1
          else if !tk.live || tk.killed then put 2
          else if !gs.all (fun g => tk.saved.contains g) then put 1
          else
            let s := put 0
            let s := (List.range 4).foldl (fun s d => s.onDie d (fun x => { x with disp :=
              { x.disp with paused := x.disp.paused.filter (· != m0.tag) } })) s
            let mine := fun (a : Active) => a.tag == m0.tag
            let give := fun (p : Dispatcher) =>
              if p.active.any mine then
                { p with active := p.active.map (fun a => if mine a then { a with images := a.images ++ pas } else a) }
              else { p with takes := p.takes + 1, active := p.active ++ [{ tag := m0.tag, images := pas, taken := p.takes }] }
            s.onDie die (fun x => { x with disp := give x.disp }))

/-! Invalidation (R342). -/

/-- Translations dropped from every TLB of the package, with the instruction-cache lines fetched through them (R241): a line
goes with its whole leaf. -/
def State.dropTlb (s : State) (hit : TlbEntry → Bool) : State :=
  let page := fun (l : Line) => hit { tenant := l.tag / 2 ^ 44, vpn := l.tag % 2 ^ 44 / l.pages * l.pages, pages := l.pages }
  let s := s.cores.foldl (fun s c => s.onTabs c.1 (fun t =>
    { t with tlb := t.tlb.filter (fun e => !hit e), icache := t.icache.filter (fun l => !page l.2) })) s
  (List.range 4).foldl (fun s d => s.onDie d (fun x => { x with tlb := x.tlb.filter (fun e => !hit e) })) s

/-- What used a translation and is not performed yet: accesses of teams that are held, collectives with a page of those covered. -/
def State.usersOf (s : State) (hit : TlbEntry → Bool) : List (Nat × Nat × Nat) :=
  s.cores.flatMap (fun c =>
    c.2.teams.flatMap (fun t => (t.2.fly.filter (fun f => !f.held.isEmpty)).map (fun f => (c.1, t.1, f.id)))
    ++ (c.2.copies.filter (fun x => x.leaves.any (fun e => hit { tenant := x.iss.tenant, vpn := e.1 }))).map (fun x => (c.1, 16, x.id)))

/-- Whether such an access is still not performed. -/
def State.stillUsing (s : State) (u : Nat × Nat × Nat) : Bool :=
  if u.2.1 = 16 then (s.core u.1).copies.any (fun x => x.id == u.2.2)
  else (s.team u.1 u.2.1).fly.any (fun f => f.id == u.2.2 && !f.held.isEmpty)

/-- The invalidation word: SCOPE, TEN, VPN and COUNT as written, and BUSY. -/
def invalWord (w busy : Nat) : BitVec 128 := BitVec.ofNat 128 (natBits w 0 76 + natBits w 117 10 * 2 ^ 117 + busy * 2 ^ 127)

/-- BUSY of the invalidation word clears once every access that used a covered translation has been performed (R342). -/
def State.invalEnd (s : State) (d : Nat) : State :=
  let c := (s.die d).cmd
  if c.inval.getLsbD 127 && !c.invalFor.any s.stillUsing then
    s.onCmd d (fun c => { c with inval := invalWord c.inval.toNat 0, invalFor := [] })
  else s

/-- A word of the invalidation command of one SCOPE (R342). -/
def invalidate (die : Nat) (word : BitVec 128) (scope : Nat) (hit : TlbEntry → Bool) (s : State) : Out :=
  onUnit "die" die 4 (
    let w := word.toNat
    if (s.die die).cmd.inval.getLsbD 127 then s
    else if word.getLsbD 127 && natBits w 125 2 == scope && natBits w 76 41 == 0 then
      let users := s.usersOf hit
      ((s.dropTlb hit).onCmd die (fun c => { c with inval := invalWord w 1, invalFor := users })).invalEnd die
    else s.onCmd die (fun c => { c with inval := invalWord w 0 }))

def execInvalidateAll (die : Nat) (word : BitVec 128) (s : State) : Out := invalidate die word 0 (fun _ => true) s
def execInvalidateTenant (die : Nat) (word : BitVec 128) (s : State) : Out :=
  invalidate die word 1 (fun e => e.tenant == natBits word.toNat 117 8) s
def execInvalidatePages (die : Nat) (word : BitVec 128) (s : State) : Out :=
  let w := word.toNat
  let lo := natBits w 32 44
  let n := natBits w 0 32
  invalidate die word 2 (fun e => e.tenant == natBits w 117 8 && decide (e.vpn < lo + n ∧ lo < e.vpn + e.pages)) s

end Sys2Proof.Machine
end

