-- ==== Sys2Proof/Machine/VecFloat.lean ====
section
/-! DEFINITION. The vector floating-point range (07 R152 to R159). -/

namespace Sys2Proof.Machine

/-- An operation on exact values rounded once (R67, R152): NV for a signalling operand joins the operation's own bits. -/
def fpOp (t : Nat) (rz : Bool) (f : List Fl → Fl × Nat) (l : List Nat) : Nat × Nat :=
  let xs := l.map (decodeFp t)
  let (r, b) := f xs
  let (p, g) := roundFp t rz false r
  (p, b ||| g ||| sigNV xs)

/-- Operand values by position. -/
def fl (xs : List Fl) (i : Nat) : Fl := xs.getD i (.nan false)

/-- The shape of the range: sources per sub-element of a floating-point type. -/
def fpVec (h : Head) (o : FmtA) (srcs : List Src) (f : List Fl → Fl × Nat) : Body := fun s =>
  s.subWise h.guard o.d.toNat (tyWidth o.ty.toNat) srcs (fpOp o.ty.toNat o.x f)

def execFadd (h : Head) (o : FmtA) (s : State) : Out :=
  .next (s.issue (.fadd h o) false false (fpVec h o [srcA o, srcB o] (fun xs => sumFl [fl xs 0, fl xs 1])))

def execFsub (h : Head) (o : FmtA) (s : State) : Out :=
  .next (s.issue (.fsub h o) false false (fpVec h o [srcA o, srcB o] (fun xs => sumFl [fl xs 0, (fl xs 1).neg])))

def execFmul (h : Head) (o : FmtA) (s : State) : Out :=
  .next (s.issue (.fmul h o) false false (fpVec h o [srcA o, srcB o] (fun xs => mulFl (fl xs 0) (fl xs 1))))

/-- FFMA (R153): zero times infinity is invalid whatever c holds. -/
def execFfma (h : Head) (o : FmtA) (s : State) : Out :=
  .next (s.issue (.ffma h o) false false (fpVec h o [srcA o, srcB o, srcC o] (fun xs =>
    let (p, f) := mulFl (fl xs 0) (fl xs 1)
    let (r, g) := sumFl [p, fl xs 2]
    (r, f ||| g))))

def execFmin (h : Head) (o : FmtA) (s : State) : Out :=
  .next (s.issue (.fmin h o) false false (fun s =>
    s.subWise h.guard o.d.toNat (tyWidth o.ty.toNat) [srcA o, srcB o] (fun l => minMaxFp o.ty.toNat false (x0 l) (x1 l))))

def execFmax (h : Head) (o : FmtA) (s : State) : Out :=
  .next (s.issue (.fmax h o) false false (fun s =>
    s.subWise h.guard o.d.toNat (tyWidth o.ty.toNat) [srcA o, srcB o] (fun l => minMaxFp o.ty.toNat true (x0 l) (x1 l))))

/-- The conditions of FCMP (R155): the outcome and NV. -/
def condFp (c : Nat) (x y : Fl) : Bool × Nat :=
  let un := x.isNan || y.isNan
  let k := cmpFl x y
  let quiet := sigNV [x, y]
  let loud := if un then stNV else 0
  match c with
  | 0 => (!un && decide (k = 0), quiet)
  | 1 => (un || decide (k ≠ 0), quiet)
  | 2 => (!un && decide (k < 0), loud)
  | 3 => (!un && decide (k ≤ 0), loud)
  | 4 => (!un && decide (k > 0), loud)
  | 5 => (!un && decide (k ≥ 0), loud)
  | 6 => (un, quiet)
  | _ => (!un, quiet)

def execFcmp (h : Head) (o : FmtA) (s : State) : Out :=
  .next (s.issue (.fcmp h o) false false (fun s =>
    let t := o.ty.toNat
    let w := tyWidth t
    let k := o.c.toNat / 8
    s.predWise h.guard o.d.toNat [srcA o, srcB o] (fun l =>
      condFp (o.c.toNat % 8) (decodeFp t (sub w k (x0 l))) (decodeFp t (sub w k (x1 l))))))

/-- OF and UF reported as SCO and SCU (R156, R159). -/
def scaledBits (f : Nat) : Nat :=
  (f &&& (stNX ||| stNV)) ||| (if f &&& stOF ≠ 0 then stSCO else 0) ||| (if f &&& stUF ≠ 0 then stSCU else 0)

/-- One value converted to a type other than .q4x (R65, R67 to R69). -/
def convTo (t : Nat) (rz sat : Bool) (x : Fl) : Nat × Nat :=
  if isFp t then roundFp t rz sat x else flToInt (isSigned t) (tyWidth t) rz x

/-- One lane of FCVT (R156, R157): `n` scales in the scaled form. -/
def fcvtLane (t u : Nat) (rz sat scaled : Bool) (n : Int) (a : Nat) : Nat × Nat :=
  let srcs : List (Fl × Nat) :=
    if u = 0x14 then (decodeQuad (a % 65536)).map (fun e => (e.1, if e.2 then stMDF else 0))
    else (List.range (tySubs u)).map (fun k =>
      let b := sub (tyWidth u) k a
      if isFp u then let x := decodeFp u b; (x, if x.isSig then stNV else 0)
      else (intFl (toInt (isSigned u) (tyWidth u) b), 0))
  if t = 0x14 then
    let v := fun i => (srcs.getD i (.fin false 0 0, 0))
    let (q, f) := encodeQuad rz (v 0).1 (v 1).1 (v 2).1 (v 3).1
    (q, f ||| (v 0).2 ||| (v 1).2 ||| (v 2).2 ||| (v 3).2)
  else
    let count := if u = 0x14 then 4 else min (tySubs t) (tySubs u)
    let rs := (srcs.take count).map (fun e =>
      let (p, f) := convTo t rz sat (scaleFl e.1 n)
      (p, (if scaled then scaledBits f else f) ||| e.2))
    (pack (tyWidth t) (rs.map Prod.fst), rs.foldl (fun a r => a ||| r.2) 0)

/-- FCVT (R156). An exponent beyond 4,096 either way rounds as 4,096 does: every product overflows, vanishes or is special. -/
def execFcvt (h : Head) (o : FmtA) (s : State) : Out :=
  .next (s.issue (.fcvt h o) false false (fun s =>
    let n := max (-4096) (min 4096 (toInt true 64 (s.rs o.b.toNat).toNat))
    s.laneWise h.guard o.d.toNat [srcA o] (fun _ vs =>
      fcvtLane o.ty.toNat (o.c.toNat % 32) o.x (o.c.toNat / 32 % 2 == 1) (o.b != 0) n (x0 vs))))

/-- Round(1 / a) (R153). -/
def rcpFl : Fl → Fl × Nat
  | .nan _ => (.nan false, 0)
  | .inf n => (.fin n 0 0, 0)
  | .fin n m e => if m = 0 then (.inf n, stDZ) else (divFin n 1 0 m e, 0)

/-- Round(1 / √a) (R153). -/
def rsqFl : Fl → Fl × Nat
  | .nan _ => (.nan false, 0)
  | .inf n => if n then (.nan false, stNV) else (.fin false 0 0, 0)
  | .fin n m e => if m = 0 then (.inf n, stDZ) else if n then (.nan false, stNV) else (rsqrtFin m e, 0)

/-- Round(2^a) (R153). -/
def exp2Fl : Fl → Fl × Nat
  | .nan _ => (.nan false, 0)
  | .inf n => if n then (.fin false 0 0, 0) else (.inf false, 0)
  | .fin n m e => (exp2Fin n m e, 0)

/-- Round(log2 a) (R153). -/
def log2Fl : Fl → Fl × Nat
  | .nan _ => (.nan false, 0)
  | .inf n => if n then (.nan false, stNV) else (.inf false, 0)
  | .fin n m e => if m = 0 then (.inf true, stDZ) else if n then (.nan false, stNV) else (log2Fin m e, 0)

def execFrcp (h : Head) (o : FmtA) (s : State) : Out :=
  .next (s.issue (.frcp h o) false false (fpVec h o [srcA o] (fun xs => rcpFl (fl xs 0))))

def execFrsq (h : Head) (o : FmtA) (s : State) : Out :=
  .next (s.issue (.frsq h o) false false (fpVec h o [srcA o] (fun xs => rsqFl (fl xs 0))))

def execFexp2 (h : Head) (o : FmtA) (s : State) : Out :=
  .next (s.issue (.fexp2 h o) false false (fpVec h o [srcA o] (fun xs => exp2Fl (fl xs 0))))

def execFlog2 (h : Head) (o : FmtA) (s : State) : Out :=
  .next (s.issue (.flog2 h o) false false (fpVec h o [srcA o] (fun xs => log2Fl (fl xs 0))))

/-- The class mask (R158). -/
def classOf (t b : Nat) : Nat :=
  let f := fpFmt t
  let e := b / 2 ^ f.frac % 2 ^ f.expo
  match decodeFp t b with
  | .nan sg => if sg then 256 else 512
  | .inf n => if n then 1 else 128
  | .fin n m _ => if m = 0 then (if n then 8 else 16) else if e = 0 then (if n then 4 else 32) else (if n then 2 else 64)

def execFclass (h : Head) (o : FmtA) (s : State) : Out :=
  .next (s.issue (.fclass h o) false false (fun s =>
    s.subWise h.guard o.d.toNat (tyWidth o.ty.toNat) [srcA o] (fun l => (classOf o.ty.toNat (x0 l), 0))))

/-- FSCL (R159); exponents as for FCVT. -/
def execFscl (h : Head) (o : FmtA) (s : State) : Out :=
  .next (s.issue (.fscl h o) false false (fun s =>
    let t := o.ty.toNat
    let w := tyWidth t
    s.subWise h.guard o.d.toNat w [srcA o, srcB o] (fun l =>
      let x := decodeFp t (x0 l)
      let n := toInt true w (x1 l)
      let (p, f) := roundFp t o.x false (scaleFl x (max (-4096) (min 4096 n)))
      (p, scaledBits f ||| sigNV [x]))))

end Sys2Proof.Machine
end

