-- ==== Sys2Proof/Machine/Turns.lean ====
section
/-! DEFINITION. What comes before and after the issue of an instruction (02 R28 to R33, 03 R53, 05 R87, R88, 06 R115, R126, 15 R350),
what the device does by itself between issues, and the events of teams and of the core clock (16 R371 to R375). -/

namespace Sys2Proof.Machine

/-! Fetching (10 R241). -/

/-- The word at the PC of the issuing agent, or the fault of its fetch. -/
def State.fetchWord (s : State) : Except FaultReq Word :=
  let ls := lanesOf s.nl s.active
  match s.fetchPlace s.ck s.tm.id.tenant s.ipc with
  | .error e => .error (uniformFault ls { e with addr := s.ipc.toNat })
  | .ok (b, _) =>
    let (w, bad) := s.fetchAt s.ck (pageTag s.tm.id.tenant s.ipc.toNat) b
    if bad then .error (poison 3 63 (ls.headD 0) true s.ipc.toNat) else .ok w

/-- What a fetch leaves in the instruction cache and the TLBs. -/
def State.fetchTouch (s : State) : State :=
  match s.fetchPlace s.ck s.tm.id.tenant s.ipc with
  | .error _ => s
  | .ok (b, e) => (s.iTouch s.ck (pageTag s.tm.id.tenant s.ipc.toNat) (leafBytes (pteSize e) / 65536) b).noteTlb s.ck s.tm.id.tenant s.ipc.toNat e

/-- A fault at the PC of a team whose instruction there has not issued: nothing is signalled, folded or counted, and the PC stays
(R381). In a replay the replay is still to come. -/
def State.faultUnissued (s : State) (fr : FaultReq) (rpm : LaneBits) : State :=
  let s := s.dropFailed fr
  let k := s.ck
  let i := s.slot
  let fpc := s.ipc
  let replay := s.tm.flt.replay
  let rpm := if replay then s.tm.regs.rpm else rpm
  let s := s.onTm (·.setRpm rpm)
  let (s, h) := s.teamRecord k i fpc { fr with rpm := rpm } (countLanes s.nl rpm)
  if halts fr.code then s.haltTeam k i 2
  else
    s.onTm (fun t => { t with
      st := 2, wait := none
      flt := { t.flt with pf := true, fpc := fpc, handle := BitVec.ofNat 32 h, hdie := dieOfCore k, code := fr.code
                          replay := false, unissued := !replay, win := none, winFly := 0, word := fr.word } })

/-! Eligibility (02 R30). -/

/-- STALL, WAIT, SIG and OPC of a raw word (R86). -/
def wStall (w : Word) : Nat := natBits w.toNat 60 4
def wSig (w : Word) : Nat := natBits w.toNat 44 4
def wOpc (w : Word) : Nat := natBits w.toNat 35 9

/-- The issue target of an opcode (R11). An opcode that is not allocated waits for and occupies the target of its range in the numbering,
the scalar pipe outside every range: the spec gives it none, and this is the model's choice (log 127). -/
def opcTarget (opc : Nat) : Nat :=
  if opc < 0x080 then 0
  else if opc < 0x160 then 1
  else if opc < 0x170 then 3
  else if 0x180 ≤ opc ∧ opc ≤ 0x18A then 2
  else if 0x18B ≤ opc ∧ opc ≤ 0x1A8 then 4
  else if 0x1B0 ≤ opc ∧ opc ≤ 0x1C5 then 2
  else 0

/-- Whether an opcode has a fault window (R380). -/
def opcWindow (opc : Nat) : Bool := decide (0x160 ≤ opc ∧ opc ≤ 0x16F) || decide (0x180 ≤ opc ∧ opc ≤ 0x18A)

/-- Whether a word finds what it needs of its core free (R30): an instruction, or a word of the command range that is none. -/
def State.wordRoom (s : State) (w : Word) : Bool :=
  match decode w with
  | .ok i => s.unitFree i
  | .error _ => s.portRoom (wOpc w)

/-- Whether the issuing team's word may issue, apart from its distance and its target (R30, R50, R88, R282, R380). -/
def State.wordReady (s : State) (w : Word) : Bool :=
  let t := s.tm
  let opc := wOpc w
  let tgt := opcTarget opc
  (List.range 12).all (fun i => !w.getLsbD (48 + i) || (t.flag (i + 1)).count == 0)
  && (wSig w == 0 || decide (12 < wSig w) || decide ((t.flag (wSig w)).count < 63))
  && !(decide (2 ≤ tgt) && t.fly.any (·.fence))
  && !((tgt == 4 || opcWindow opc) && (t.flt.win.isSome || t.fly.any (fun f => f.win || f.curs)))
  && s.wordRoom w

/-- Whether the issuing agent may issue at all (R13, R26, R305, R308, 14 R322). -/
def State.agentReady (s : State) : Bool :=
  !s.stopped s.ck && !s.relocks s.ck && (s.tm.id.start == 0)
  && match s.cur with
     | .team .. => s.tm.st == 1 && !s.tm.park && !s.tm.flt.pf
     | .gath .. => s.gt.bound && !s.gt.ended && !s.gt.halt

/-- The join tests before an issue (R115). -/
def State.joined (s : State) : State :=
  match s.cur with
  | .team .. => if s.tm.flt.replay then s else s.joinAll (2 * s.tm.path.stack.length + 2)
  | .gath .. => s

/-! Breakpoints (15 R349, R350). -/

/-- The comparison of a comparator on a register's bits. -/
def Bkpt.test (b : Bkpt) (x : Nat) : Bool :=
  let sel := b.sel.toNat
  let ty := natBits sel 0 5
  let cond := natBits b.ctl.toNat 60 3
  let w := tyWidth ty
  let p := sub w (natBits sel 5 3) x
  let q := b.val.toNat % 2 ^ w
  if isFp ty then
    let u := decodeFp ty p
    let v := decodeFp ty q
    !u.isNan && !v.isNan && (condFp cond u v).1
  else condInt cond (toInt (isSigned ty) w p) (toInt (isSigned ty) w q)

/-- Whether an enabled comparator matches the instruction that issues, over the lanes it serves. -/
def State.bkMatch (s : State) (ls : List Nat) (b : Bkpt) : Bool :=
  let reg := natBits b.sel.toNat 8 6
  let lanes := fun (f : Nat → Bool) => if b.ctl.getLsbD 59 then !ls.isEmpty && ls.all f else ls.any f
  b.ctl.getLsbD 63 && b.pc == s.ipc && (!b.ctl.getLsbD 58 || natBits b.ctl.toNat 50 8 == s.tm.id.tenant)
  && match natBits b.sel.toNat 14 2 with
     | 0 => lanes (fun l => let c := s.rvNow reg l; !c.pz && b.test c.val.toNat)
     | 1 => b.test (s.rs reg).toNat
     | 2 => lanes (fun l => b.test (s.rpNow reg l).toNat)
     | _ => false

/-- A match counted: HITS, and a debug stop is requested unless one is already. -/
def State.bkHit (s : State) (n : Nat) : State :=
  let s := s.onTabs s.ck (fun t => { t with bk := Tbl.upd {} t.bk n (fun b =>
    { b with ctl := if b.ctl.toNat % 65536 = 0xFFFF then b.ctl else b.ctl + 1 }) })
  s.onTm (Team.onFlt · (fun f => { f with dbg := some (f.dbg.getD n) }))

/-- Every comparator tested at an issue under a guard. -/
def State.breakpoints (s : State) (g : BitVec 4) : State :=
  let ls := if g = 8 then [] else s.lanesNow g
  (List.range 8).foldl (fun s' n => if s.bkMatch ls (Tbl.get {} s.cr.tabs.bk n) then s'.bkHit n else s') s

/-- The instructions before which a debug stop lands (R124): YIELD, RGNE, RGNL. -/
def stopsAt (opc : Nat) : Bool := opc == 0x00C || opc == 0x013 || opc == 0x014

/-- A requested debug stop lands (R124). -/
def State.debugStop (s : State) (n : Nat) (w : Word) : State :=
  (s.onTm (Team.onFlt · (fun f => { f with dbg := none }))).faultUnissued
    { faultOf 0x0F 0 0 ((n + 1) * 2 ^ 16) with word := w } 0

/-! Before the issue. -/

/-- The count and the fold of an issue (R53, R126); a replay makes neither, and a wait that issues again is counted but folds nothing
(log 15). A word that is no instruction folds its OPC. -/
def State.countIssue (s : State) (w : Word) : State :=
  if s.tm.flt.replay then s
  else
    let s := match decode w with
      | .ok (.land ..) | .ok (.sigck ..) => s
      | _ => if s.tm.rewait then s else s.foldSig (wOpc w)
    s.onRegs (fun r => { r with ycnt := min 0x1_FFFF (r.ycnt + 1) })

/-- The guard of a word. -/
def guardOf (r : Except DecodeError Instr) (w : Word) : BitVec 4 :=
  match r with
  | .ok i => (instrInfo i).head.guard
  | .error _ => rawGuard w

/-- What the selected agent comes to. -/
inductive Plan where
  | idle (s : State)
  | bad (w : Word) (s : State)
  | run (i : Instr) (w : Word) (s : State)
deriving DecidableEq, Repr

/-- The state in which an agent's instruction executes: its word fetched, comparators tested, the issue counted and folded. -/
def State.prologue (s : State) (w : Word) : State :=
  let s := s.fetchTouch
  match s.cur with
  | .team .. =>
    let s := if s.tm.flt.replay || s.tm.rewait then s else s.breakpoints (guardOf (decode w) w)
    s.countIssue w
  | .gath .. => s

/-- What the agent that is to issue does (R30, R115, R124, R241): nothing, a stop before its issue, or an instruction. -/
def State.plan (s : State) : Plan :=
  if !s.agentReady then .idle s
  else
    let s := s.joined
    if !s.agentReady then .idle s
    else
      match s.cur with
      | .team .. =>
        if !s.tm.flt.replay && s.tm.path.atJoin then .idle s
        else match s.fetchWord with
          | .error fr => .idle (if s.tm.flt.win.isSome then s else s.fetchTouch.faultUnissued fr s.active)
          | .ok w =>
            if !s.wordReady w then .idle s
            else match if s.tm.flt.replay || s.tm.flt.win.isSome then none else s.tm.flt.dbg with
              | some n => if stopsAt (wOpc w) then .idle (s.debugStop n w) else
                match decode w with
                | .ok i => .run i w (s.prologue w)
                | .error _ => .bad w ((s.prologue w).issueIllegal w illegal)
              | none =>
                match decode w with
                | .ok i => .run i w (s.prologue w)
                | .error _ => .bad w ((s.prologue w).issueIllegal w illegal)
      | .gath .. =>
        match s.fetchWord with
        | .error fr => .idle (s.fetchTouch.gathFault fr)
        | .ok w => if !s.wordRoom w then .idle s else match decode w with
          | .ok i => .run i w (s.prologue w)
          | .error _ => .bad w ((s.prologue w).issueIllegal w illegal)

/-! After the issue. -/

/-- Cycles for which an instruction occupies its target (R28): STT by the sections that hold its source. -/
def State.occupies (s : State) (w : Word) : Nat :=
  match decode w with
  | .error _ => 1
  | .ok i =>
    let n := instrInfo i
    if n.opc = 0x186 then (if natBits w.toNat 8 5 = 0x10 then 4 else 2) else max 1 (s.sections n)

/-- The watchdog fault in the place of an issue (R53, R388). -/
def State.watchdog (s : State) (w : Word) : State :=
  let k := s.ck
  let i := s.slot
  let t := s.tm
  let tag := t.id.tag
  let fr := { faultOf 0x06 0 0 (t.regs.ycnt + t.id.yb * 2 ^ 32) with word := w }
  let (s, _) := s.teamRecord k i s.ipc fr (countLanes s.nl t.regs.rpm)
  (s.haltTeam k i 2).killTask tag

/-- The books of an issue (R28 to R33, R374): target, distance, counts. -/
def State.account (s : State) (w : Word) (occ swept skipped : Nat) : State :=
  let k := s.ck
  let i := s.slot
  let ten := s.tm.id.tenant
  let cyc := s.cyc
  let tgt := opcTarget (wOpc w)
  let place := if tgt = 0 then 0 else if tgt = 1 then (if Tbl.get 0 s.cr.busy 1 ≤ cyc then 1 else 2) else tgt + 1
  let s := s.count k 2 ten 1
  let s := s.count k 3 ten swept
  let s := s.count k 4 ten skipped
  let s := s.onCore k (fun c =>
    { c with busy := Tbl.set 0 c.busy place (cyc + occ), busyFor := Tbl.set 0 c.busyFor place ten
             ctl := { c.ctl with issued := i :: c.ctl.issued } })
  s.onTm (fun t => { t with rewait := false, sched := { ref := cyc + occ - 1, lastIssue := some cyc, bypass := 0, readyFor := 0, promo := 0 } })

/-- Whether an instruction has issued between two states. -/
def issuedBetween (a b : State) (w : Word) : Bool :=
  match a.cur with
  | .team .. => a.tm.nextId != b.tm.nextId
  | .gath .. => b.gt != a.gt || opcTarget (wOpc w) == 0

/-- Events of class P that wait at a recorder (R317). -/
def Recorder.waitsP (r : Recorder) : Nat := r.held.length + (r.late.filter (·.2)).length

/-- The step's end for an agent (R30, R53, 14 R317): `a` is the state before its prologue, `b` the state after its instruction.
What did not issue has changed nothing; an issue beyond the yield bound is replaced. -/
def State.closeTurn (a b : State) (w : Word) : State :=
  let b := { b with cur := a.cur }
  if !issuedBetween a b w then a
  else if a.cr.rcd.full true && decide (a.cr.rcd.waitsP < b.cr.rcd.waitsP) then a
  else
    match a.cur with
    | .gath .. => b.count a.ck 2 a.tm.id.tenant 1
    | .team .. =>
      if !a.tm.flt.replay && decide (a.tm.id.yb < a.tm.regs.ycnt + 1) then (if a.tm.flt.win.isSome then a else a.watchdog w)
      else
        let sweeps := match decode w with | .ok i => (instrInfo i).sweep | .error _ => false
        let on := ((List.range 32).filter (fun i => a.tm.path.mask.summ.getLsbD i)).length
        b.account w (a.occupies w) (if sweeps then on else 0) (if sweeps then a.tm.id.lanes / 32 - on else 0)

/-! Events of teams. -/

/-- An event of a team slot. -/
def onSlot (core slot : Nat) (s : State) : Out :=
  if core < 192 then onUnit "slot" slot 16 s else .fault (.noSuchUnit "core" core)

/-- Whether an engine of the core still holds the command of an entry in flight. -/
def State.engineHolds (s : State) (k i : Nat) (f : InFlight) : Bool :=
  let c := s.core k
  let gref := (s.team k i).id.gref
  let mine := fun (x : Issuer) => x.slot == i && x.gref == gref && x.fly == f.id
  c.copies.any (fun x => mine x.iss)
  || (c.mat.fifo ++ c.mat.loads ++ c.mat.mmas.map (·.cmd) ++ (c.mat.drain.map (·.cmd)).toList).any (fun x => mine x.iss)
  || c.mat.late.any (fun x => mine x.1)

/-- Whether an entry in flight may complete by itself (R89): of variable latency, held by no engine and no range guard, no wait,
no fault in its window; a fence only behind the team's earlier accesses (R282); nothing during a relock. -/
def State.canComplete (s : State) (k i : Nat) (f : InFlight) : Bool :=
  let t := s.team k i
  f.due.isNone && f.held.isEmpty && !s.engineHolds k i f
  && (match t.wait with | some w => w.fly != f.id | none => true)
  && !((t.flt.win.isSome || t.flt.pf) && t.flt.winFly == f.id)
  && !(f.fence && t.fly.any (fun g => decide (g.id < f.id) && (g.acc || g.curs)))
  && !s.relocks k

/-- An entry in flight completes by itself; a fence acquires then (R262, R282). -/
def State.completeOp (s : State) (k i : Nat) (f : InFlight) : State :=
  let s := if f.fence && f.acq != 0 then s.l1Acquire k (f.acq - 1) true else s
  s.onTeam k i (·.complete f.id)

/-- INSTRUCTION_COMPLETION (R89). -/
def execInstructionCompletion (core slot op : Nat) (s : State) : Out :=
  onSlot core slot (match (s.team core slot).fly.find? (fun f => f.id == op) with
    | some f => if s.canComplete core slot f then s.completeOp core slot f else s
    | none => s)

/-- A fault in the window interrupts the wait at which its team has arrived meanwhile: the wait issues again after the fault. -/
def Team.breakWait (t : Team) : Team :=
  match t.wait with
  | none => t
  | some w =>
    { t.withdraw with fly := t.fly.filter (fun f => f.id != w.fly), haz := t.haz.filter (fun h => h.fly != some w.fly)
                      wait := none, rewait := true }

/-- FAULT_RAISE (R381): the team stops, what it issued later completes, the record is written, the flag falls. The accesses of the lanes
that commit are performed before it (R270). -/
def State.raiseFault (s : State) (k i : Nat) : State :=
  let t := s.team k i
  match t.flt.win with
  | none => s
  | some fr =>
    if t.flt.pf || !(t.st == 1 || t.st == 2) || t.fly.any (fun f => f.id == t.flt.winFly && !f.held.isEmpty) then s
    else
      let id := t.flt.winFly
      let s := s.onTeam k i Team.breakWait
      let later := (s.team k i).fly.filter (fun f => decide (id < f.id) && s.canComplete k i f)
      let s := later.foldl (fun s f => s.completeOp k i f) s
      let s := s.onTeam k i (fun t => { t.setRpm fr.rpm with st := 2 })
      let (s, h) := s.teamRecord k i t.flt.winPc fr (countLanes t.id.lanes fr.rpm)
      let s := if h = 0 then s else s.onTeam k i (·.complete id)
      s.onTeam k i (fun t => { t with
        flt := { t.flt with pf := true, fpc := t.flt.winPc, handle := BitVec.ofNat 32 h, hdie := dieOfCore k, code := fr.code
                            atIssue := false, replay := false, unissued := false, win := none, word := fr.word } })

def execFaultRaise (core slot : Nat) (s : State) : Out := onSlot core slot (s.raiseFault core slot)

/-- DEBUG_STOP (R124): a stop that was requested lands at a team that is about to issue RGNE, RGNL or YIELD. -/
def execDebugStop (core slot : Nat) (s : State) : Out :=
  onSlot core slot (
    let a : State := { s with cur := .team core slot }
    match (s.team core slot).flt.dbg with
    | none => s
    | some n =>
      if !a.agentReady || a.tm.flt.replay || a.tm.flt.win.isSome then s
      else
        let b := a.joined
        if !b.agentReady || b.tm.path.atJoin then s
        else match b.fetchWord with
          | .error _ => s
          | .ok w => if stopsAt (wOpc w) then { b.debugStop n w with cur := s.cur } else s)

/-- Whether a copy that counts at a barrier of a group is stopped at a pending fault (R356). -/
def State.copyStalled (s : State) (k g b : Nat) : Bool :=
  s.cores.any (fun c => c.2.copies.any (fun x =>
    x.pend && !x.nb && x.kind != 3 && x.k == b
      && s.copyTarget c.1 x ((s.dstBytes c.1 (c.2.group x.iss.grp) x).head?) == some (k, g)))

/-- Whether the completion test at the next core cycle will end the phase that a wait is for (R353, R356). -/
def State.phaseDue (s : State) (k i : Nat) (w : Wait) : Bool :=
  match w.kind with
  | .named b _ => ((s.nbar k (((s.core k).group (s.team k i).id.grp).bbase + b)).tryComplete).2
  | .cluster b _ => ((s.cbar k b).tryComplete).2
  | _ => false

/-- The end of a team's wait: by its condition, or, once the nanosecond of its deadline is over, by its timeout (R356). -/
def State.waitStatus (s : State) (k i : Nat) (w : Wait) : Option Nat :=
  match s.waitEnds k i w with
  | some st => some st
  | none =>
    match w.deadline with
    | none => none
    | some d =>
      if s.time ≤ d ∨ s.phaseDue k i w then none
      else match w.kind with
        | .named b _ => some (if s.copyStalled k (s.team k i).id.grp b then 4 else 1)
        | _ => some 1

/-- A team's wait ended if it can end (R26); none ends during a relock of its die (R13, R436). -/
def State.tryWait (s : State) (k i : Nat) : State :=
  match (s.team k i).wait with
  | none => s
  | some w => match s.waitStatus k i w with
    | none => s
    | some st => if s.relocks k then s else s.finishWait k i w st

/-- WAIT_TIMEOUT (R100, R356). -/
def execWaitTimeout (core slot : Nat) (s : State) : Out := onSlot core slot (s.tryWait core slot)

/-- A promotion that is due (R33). -/
def Team.promoted (t : Team) : Team :=
  if t.st = 1 ∧ 4096 ≤ t.sched.readyFor ∧ t.sched.promo < t.id.cls then
    { t with sched := { t.sched with promo := t.sched.promo + 1, readyFor := 0 } }
  else t

/-- CLASS_PROMOTION (R33). -/
def execClassPromotion (core slot : Nat) (s : State) : Out := onSlot core slot (s.onTeam core slot Team.promoted)

/-! The issue logic of a cycle (R29 to R33). -/

/-- Whether a target is free in this cycle. -/
def Core.targetFree (c : Core) (cyc tgt : Nat) : Bool :=
  match tgt with
  | 0 => decide (Tbl.get 0 c.busy 0 ≤ cyc)
  | 1 => decide (Tbl.get 0 c.busy 1 ≤ cyc) || decide (Tbl.get 0 c.busy 2 ≤ cyc)
  | n => decide (Tbl.get 0 c.busy (n + 1) ≤ cyc)

/-- A team that may issue in this cycle: effective class, whether its bypass count is below 32, its last issue, slot and target. -/
structure Bid where
  cls : Nat
  late : Nat
  last : Nat
  slot : Nat
  tgt : Nat
deriving DecidableEq, Repr

/-- The order of R31 and R32. -/
def Bid.before (a b : Bid) : Bool :=
  decide (a.cls < b.cls ∨ (a.cls = b.cls ∧ (a.late < b.late ∨ (a.late = b.late ∧ (a.last < b.last ∨ (a.last = b.last ∧ a.slot < b.slot))))))

def bestBid : List Bid → Option Bid
  | [] => none
  | x :: xs => match bestBid xs with
    | none => some x
    | some y => if y.before x then some y else some x

/-- The bid of a team whose next instruction is eligible (R30). A team whose join check or fetch is about to fault bids as if its word
were zero: no distance, no flag, the scalar pipe; the spec does not say how it takes part, and this is the model's choice (log 128). -/
def State.bid (s : State) (k i : Nat) : Option Bid :=
  let a : State := { s with cur := .team k i }
  if !a.agentReady then none
  else
    let a := a.joined
    let t := a.tm
    let w := if t.flt.pf then 0 else match a.fetchWord with | .ok w => w | .error _ => 0
    let tgt := opcTarget (wOpc w)
    if (!t.flt.pf && (!a.agentReady || (!t.flt.replay && t.path.atJoin) || !a.wordReady w))
        || decide (a.cyc < t.sched.ref + wStall w + 1) || !a.cr.targetFree a.cyc tgt then none
    else some { cls := t.id.cls - t.sched.promo, late := if 32 ≤ t.sched.bypass then 0 else 1
                last := match t.sched.lastIssue with | none => 0 | some c => c + 1
                slot := i, tgt := tgt }

/-- Whether a second bid may go with a first: another team, another target; two vector pipes are two targets (R11). -/
def Core.besides (c : Core) (cyc : Nat) (a b : Bid) : Bool :=
  b.slot != a.slot && (b.tgt != a.tgt
    || (a.tgt == 1 && decide (Tbl.get 0 c.busy 1 ≤ cyc) && decide (Tbl.get 0 c.busy 2 ≤ cyc)))

/-- The two selections of a core (R31). -/
def State.selectTeams (s : State) (k : Nat) (bids : List Bid) : List Bid :=
  match bestBid bids with
  | none => []
  | some a => a :: (bestBid (bids.filter ((s.core k).besides (s.die (dieOfCore k)).clk.cyc.toNat a))).toList

/-- Normalised cycles of a core cycle, in units of 1/1280 (R372). -/
def cycUnits (step : Nat) : Nat := match step with | 0 => 2560 | 1 => 1920 | 2 => 1536 | _ => 1280

/-- CYCN and its hidden remainder advanced by units of 1/1280 (R372). -/
def Clock.addNorm (c : Clock) (units : Nat) : Clock :=
  { c with cycn := c.cycn + BitVec.ofNat 64 ((c.rem + units) / 5), rem := (c.rem + units) % 5 }

/-- What the sampler sees of a team that did not issue (R375). -/
def State.whyNot (s : State) (k i : Nat) : Nat × Nat :=
  let a := ({ s with cur := .team k i } : State).joined
  let t := a.tm
  let w := match a.fetchWord with | .ok w => w | .error _ => 0
  if t.flt.pf then (5, 0)
  else if t.st = 2 then (4, match t.wait with | some w => (match w.kind with | .flag f _ => f | _ => 0) | none => 0)
  else if a.cyc < t.sched.ref + wStall w + 1 then (0, 0)
  else
    match (List.range 12).find? (fun i => w.getLsbD (48 + i) && (t.flag (i + 1)).count != 0) with
    | some i => (1, i + 1)
    | none =>
      if !a.cr.targetFree a.cyc (opcTarget (wOpc w)) then (2, 0)
      else if opcTarget (wOpc w) = 4 ∧ !a.wordRoom w then (3, 0)
      else if a.wordReady w then (6, 0) else (2, 0)

/-- A stall sample of a core (R375): the next resident team in slot order that did not issue in the cycle. -/
def State.sample (s : State) (k : Nat) : State :=
  let c := s.core k
  let order := (List.range 16).map (fun n => (c.ctl.ssteam + n) % 16)
  let s := s.onCtl k (fun x => { x with sscnt := 0 })
  match order.find? (fun i => ((c.team i).st == 1 || (c.team i).st == 2) && !c.ctl.issued.contains i) with
  | none => s
  | some i =>
    let t := c.team i
    let (why, flag) := s.whyNot k i
    let blame := if flag = 0 then 0 else (t.flag flag).blame.toNat / 8 % 2 ^ 57 * 8
    let x : Sample :=
      { spc := BitVec.ofNat 64 (2 ^ 63 + pcBits t.path.pc * 8), sbl := BitVec.ofNat 64 (flag * 2 ^ 60 + blame)
        sinf := BitVec.ofNat 64 (t.tops.1 * 2 ^ 48 + t.tops.2 * 2 ^ 32 + t.id.tenant % 256 * 2 ^ 24 + i * 2 ^ 20 + why * 2 ^ 16) }
    s.onCtl k (fun ctl => { ctl with samples := Tbl.set {} ctl.samples (ctl.ssslot % 8) x, ssslot := (ctl.ssslot + 1) % 8
                                     ssteam := (i + 1) % 16 })

/-- STALL_SAMPLE (R375): when the period is over. -/
def execStallSample (core : Nat) (s : State) : Out :=
  onUnit "core" core 192 (
    let c := (s.core core).ctl
    if c.ssen && decide (c.ssper ≤ c.sscnt) then s.sample core else s)

/-- The counts of a core cycle `cyc` (R374): the cycle, its busy vector pipes, a full crossing FIFO, no issue. -/
def Core.countCycle (c : Core) (cyc : Nat) : CoreCtl :=
  let pipe := fun (x : CoreCtl) (p : Nat) => if cyc < Tbl.get 0 c.busy p then x.count 5 (Tbl.get 0 c.busyFor p) 1 else x
  ((pipe (pipe (c.ctl.count 1 0x100 1) 1) 2).count 10 0x100 (if 16 ≤ c.mat.fifo.length then 1 else 0)).count 12 0x100 c.ctl.issued.isEmpty.toNat

/-- The end of a core's cycle, before its clock moves on (R374, R375): a stall sample that is due, and the cycle's counts. -/
def State.coreEnd (s : State) (k : Nat) : State :=
  let ctl := (s.core k).ctl
  let s := if ctl.ssen && decide (ctl.ssper ≤ ctl.sscnt) then s.sample k else s
  let cyc := (s.die (dieOfCore k)).clk.cyc.toNat
  s.onCore k (fun c =>
    let x := c.countCycle cyc
    { c with ctl := { x with issued := [], sscnt := if x.ssen then x.sscnt + 1 else 0 } })

/-- A core at its clock edge (R29 to R33, R89, R353): the barriers that the last cycle changed are tested, the recorder takes what waits,
results due are readable, what a relock kept back completes, the issue logic selects. -/
def State.coreEdge (s : State) (k : Nat) : State × List Agent :=
  let s := if s.stopped k then s else s.tryBars k
  let cyc := (s.die (dieOfCore k)).clk.cyc.toNat
  let s := s.onCore k (fun c =>
    let c := c.recorderCycle s.seq s.time
    { c with teams := c.teams.map (fun t => (t.1, t.2.completeDue cyc)) })
  let s := s.applyLate k
  if s.stopped k then (s, [])
  else
    let slots := ((s.core k).teams.filter (fun t => t.2.st == 1 && t.2.id.start == 0)).map Prod.fst
    let bids := slots.filterMap (s.bid k)
    let sel := s.selectTeams k bids
    let s := slots.foldl (fun s i => s.onTeam k i (fun t =>
      let mine := bids.find? (fun b => b.slot == i)
      let passed := match mine with
        | some b => !(sel.any (fun x => x.slot == i)) && sel.any (fun x => x.cls == b.cls)
        | none => false
      ({ t with sched := { t.sched with readyFor := t.sched.readyFor + 1, bypass := if passed then t.sched.bypass + 1 else t.sched.bypass } } : Team).promoted)) s
    let gs := ((s.core k).gaths.filter (fun g => g.2.bound && !g.2.ended && !g.2.halt)).map Prod.fst
    (s, sel.map (fun b => .team k b.slot) ++ gs.map (fun g => .gath k g))

/-- What a core cycle costs of the time owed (R12, R370): one cycle, more or less by the rate at which reference time is slewed. -/
def State.cycleCost (s : State) : Nat := (10 * (1000000000 + s.ctrl.ptp.rate)).toNat

/-- Whether a die stands at a core-cycle boundary: outside a relock, where elapsed time has brought the end of a cycle, or right after a
relock. -/
def State.atBoundary (s : State) (d : Nat) : Bool :=
  let c := (s.die d).clk
  c.relock.isNone && (c.counted || decide (s.cycleCost ≤ c.owed))

/-- The cores of a die that hold anything. -/
def State.liveCores (s : State) (d : Nat) : List Nat := (s.cores.map Prod.fst).filter (fun k => dieOfCore k == d)

/-- The boundary after a cycle (R353, R371, R372): the cluster barriers are tested, the cycle's samples and counts are taken, CYC and CYCN
move on. -/
def State.cycleEnd (s : State) (d : Nat) : State :=
  if (s.die d).clk.counted then s.onClk d (fun c => { c with counted := false })
  else
    let cost := s.cycleCost
    let s := (s.liveCores d).foldl State.coreEnd (s.tryCbars d)
    s.onClk d (fun c => ({ c with cyc := c.cyc + 1, owed := c.owed - cost }.addNorm (cycUnits c.step)))

/-- A change of step that is due begins at a core-cycle boundary (R13, R425); the next cycle begins when the relock is over (R372). -/
def State.beginRelock (s : State) (d : Nat) : State :=
  match (s.die d).clk.next with
  | none => s
  | some (st, cause) =>
    if !s.atBoundary d then s
    else
      let s := (s.cycleEnd d).onClk d (fun c => { c with relock := some 2000, counted := true, goal := (st, cause), next := none })
      s.dvfs d (s.die d).clk.step st cause 0

/-- CORE_CYCLE (R31, R353, R371, R372): only as often as reference time has brought a cycle (R12); the clock stands during a relock
(R13), which begins before the next cycle where one is due (R425). -/
def execCoreCycle (die : Nat) (s : State) : Out :=
  onUnit "die" die 4 (
    if !s.atBoundary die then s
    else if (s.die die).clk.next.isSome then s.beginRelock die
    else
      let s := s.cycleEnd die
      let r := (s.liveCores die).foldl (fun (acc : State × List Agent) k => let x := acc.1.coreEdge k; (x.1, acc.2 ++ x.2)) (s, [])
      { r.1 with selected := r.1.selected ++ r.2 })

/-! Writes of system registers with a behaviour of their own, as a privileged SWR makes them (03 R61, R62; 15 R349; 16 R375). -/

def execSpinthWrite (core : Nat) (v : Word) (s : State) : Out :=
  onUnit "core" core 192 (s.onCore core (fun c => c.sysWrite 0x030 v))

def execAelogWrite (core : Nat) (v : Word) (s : State) : Out :=
  onUnit "core" core 192 (s.onCore core (fun c => c.sysWrite 0x031 v))

def execBkctlWrite (core k : Nat) (v : Word) (s : State) : Out :=
  if core < 192 then onUnit "k" k 8 (s.onCore core (fun c => c.sysWrite (0x043 + 4 * k) v)) else .fault (.noSuchUnit "core" core)

def execSsctlWrite (core : Nat) (v : Word) (s : State) : Out :=
  onUnit "core" core 192 (s.onCore core (fun c => c.sysWrite 0x0A0 v))

def execSpcWrite (core j : Nat) (v : Word) (s : State) : Out :=
  if core < 192 then onUnit "j" j 8 (s.onCore core (fun c => c.sysWrite (0x0A8 + 3 * j) v)) else .fault (.noSuchUnit "core" core)

/-! What follows every step by itself. -/

/-- Accesses of one instruction that are held, performed once the range guard and the team's earlier accesses let them (R246, R256 to
R258); an acquire follows its read (R262). -/
def State.serveOp (s : State) (k i id : Nat) : State :=
  let a : State := { s with cur := .team k i }
  match a.tm.fly.find? (fun f => f.id == id && !f.held.isEmpty) with
  | none => s
  | some f =>
    if a.stillHeld a.tm f then s
    else
      let a := ((a.onTm (·.front id)).performOps f.held).acquired f.acq
      let a := a.onTm (fun t => { t with fly := t.fly.map (fun g => if g.id == id then { g with held := [], guards := [] } else g) })
      { a with cur := s.cur }

/-- The accesses of a team that are held, in issue order. -/
def State.serveHeld (s : State) (k i : Nat) : State :=
  (((s.team k i).fly.filter (fun f => !f.held.isEmpty)).foldr (fun f ids => insertAsc f.id ids) []).foldl (fun s id => s.serveOp k i id) s

/-- A grant taken up before a replay (R197). -/
def State.takeGrant (s : State) (k i : Nat) : State :=
  if (s.team k i).flt.grant.isSome && (s.team k i).st == 1 then
    { ({ s with cur := .team k i } : State).useGrant with cur := s.cur }
  else s

def State.takeGathGrant (s : State) (k g : Nat) : State :=
  if (s.gath k g).grant.isSome && !(s.gath k g).halt then { ({ s with cur := .gath k g } : State).useGrant with cur := s.cur } else s

/-- A path without lanes arrives (R115); a team without any is DONE once its flags and its fault window are clear (R26, R122). -/
def State.finishPath (s : State) (k i : Nat) : State :=
  let t := s.team k i
  if t.st ≠ 1 ∨ t.park ∨ t.flt.replay ∨ t.path.mask.sect ≠ 0 then s
  else
    let s : State := { ({ s with cur := .team k i } : State).joined with cur := s.cur }
    let t := s.team k i
    if t.st = 1 ∧ t.path.mask.sect = 0 ∧ t.path.stack.isEmpty ∧ t.flagsZero ∧ t.flt.win.isNone then
      s.onTeam k i (fun t => { t with st := 5 })
    else s

/-- What a core's clock drives between issues: held accesses, grants, waits, pops. -/
def State.driveCore (s : State) (k : Nat) : State :=
  let slots := (s.core k).teams.map Prod.fst
  let s := slots.foldl (fun s i => ((s.serveHeld k i).takeGrant k i).tryWait k i) s
  let s := ((s.core k).gaths.map Prod.fst).foldl (fun s g => s.takeGathGrant k g) s
  ((s.core k).groups).foldl (fun s g => (List.range 8).foldl (fun s q => State.servePops k g.1 q 16 s) s) s

/-- A core settles: what its clock drives, which stands during a relock (R13); paths, groups. -/
def State.settleCore (s : State) (k : Nat) : State :=
  let slots := (s.core k).teams.map Prod.fst
  let s := if s.relocks k then s else s.driveCore k
  let s := slots.foldl (fun s i => s.finishPath k i) s
  s.freeGroups k

/-- The device settles after a step. -/
def State.settle (s : State) : State :=
  let s := (s.cores.map Prod.fst).foldl (fun s k => s.settleCore k) s
  (List.range 4).foldl (fun s d => ((s.preemptEnd d).invalEnd d).noteIdle d) s

end Sys2Proof.Machine
end

