-- ==== Sys2Proof/Machine/Host.lean ====
section
/-! DEFINITION. What the host does through its port (18 R398 to R407, 13 R297, R300, 15 R336, R342): enqueue writes, writes of
queue-block and I/O-block words, accesses of memory through BAR 4, ATS invalidations. Functions are numbered 0 for the PF and
k + 1 for VF k. -/

namespace Sys2Proof.Machine

/-- The binding entry of VF `k` (R403). -/
def State.binding (s : State) (k : Nat) : Word := Tbl.get 0 s.io.vfb k
def vfBound (w : Word) : Bool := w.getLsbD 63
def vfTenant (w : Word) : Nat := natBits w.toNat 55 8

/-- Whether a function answers memory requests: after step 7 of reset, the PF, or a bound VF (R403, 19 R420). -/
def State.fnOpen (s : State) (fn : Nat) : Bool := s.ctrl.boot == 7 && (fn == 0 || vfBound (s.binding (fn - 1)))

/-- An event of a function. -/
def onFn (fn : Nat) (s : State) : Out := onUnit "fn" fn 17 s

/-- The mailbox error count of a function (R404, R405). -/
def State.fnErr (s : State) (fn : Nat) : State := { s with io := { s.io with fnErrs := Tbl.upd 0 s.io.fnErrs fn (· + 1) } }

/-! Task queues (R297, R300). -/

/-- HOST_ENQUEUE (R300): a discarded write leaves an enqueue-dropped record, with the index that the record would have had. -/
def execHostEnqueue (fn q off : Nat) (data : List Byte) (s : State) : Out :=
  if 17 ≤ fn then .fault (.noSuchUnit "fn" fn)
  else onUnit "q" q 256 (
    if !s.fnOpen fn || s.ctrl.power == 2 then s
    else
      let t := s.tq q
      let foreign := fn != 0 && vfTenant (s.binding (fn - 1)) != t.tenant
      if off ≠ 0 ∨ data.length ≠ 64 ∨ t.full ∨ !t.en ∨ foreign then s.dispatchRecord (q / 64) (tagOf q t.tail.toNat) fn 0 0x26 t.tenant
      else s.enqueue q (leNat data))

/-- The queue state word as the host reads it (R297). -/
def TaskQueue.word (t : TaskQueue) : Nat :=
  t.base * 2 ^ 88 + min t.szlog 10 * 2 ^ 84 + t.tenant % 256 * 2 ^ 76 + t.cls % 4 * 2 ^ 74 + t.prv.toNat * 2 ^ 73 + t.pull.toNat * 2 ^ 72
    + t.en.toNat * 2 ^ 71 + t.tail.toNat * 2 ^ 32 + t.head.toNat

/-- A queue whose state word the host has written; records that a new TAIL brings in count as enqueued now. Tenant 0xFF is bound to no
queue (14 R316): a write that names it is discarded (log 117). -/
def TaskQueue.write (t : TaskQueue) (x now : Nat) : TaskQueue :=
  if natBits x 76 8 = 0xFF then t else
  let u := { t with tenant := natBits x 76 8, cls := natBits x 74 2, prv := x.testBit 73, pull := x.testBit 72, en := x.testBit 71 }
  if t.en then u
  else
    let v := { u with base := natBits x 88 40, szlog := natBits x 84 4, tail := BitVec.ofNat 32 (natBits x 32 32)
                      head := BitVec.ofNat 32 (natBits x 0 32), times := [] }
    { v with times := (List.range (min v.count v.size)).foldl (fun m i => Tbl.set 0 m ((v.head.toNat + i) % 2 ^ 32) now) [] }

/-- TASK_QUEUE_STATE_WRITE (R297). -/
def execTaskQueueStateWrite (q : Nat) (word : BitVec 128) (s : State) : Out :=
  onUnit "q" q 256 (if s.ctrl.power = 2 then s else s.onTq q (fun t => t.write word.toNat s.time))

/-! Words of the I/O block (R401 to R403, R416). -/

/-- Size of mesh axis `a` of a context entry. -/
def axisSize (x a : Nat) : Nat := natBits x (160 + 8 * a) 8

/-- Whether a context entry keeps the rules of R416. -/
def contextOk (x : Nat) : Bool :=
  let nax := natBits x 228 3
  let nmem := natBits x 239 8
  decide (((List.range (nax + 1)).map (fun a => axisSize x a + 1)).foldl (· * ·) 1 = nmem + 1)
  && ((List.range 8).filter (fun a => decide (nax < a))).all (fun a => axisSize x a == 0)
  && decide (natBits x 231 8 ≤ nmem)

/-- CONTEXT_ENTRY_WRITE (R416): stored with EN = 0 in breach of its rules. -/
def execContextEntryWrite (k : Nat) (word : BitVec 256) (s : State) : Out :=
  let x := word.toNat
  let kept := natBits x 228 27 * 2 ^ 228 + natBits x 160 64 * 2 ^ 160 + natBits x 120 40 * 2 ^ 120 + x % 2
  let y := kept + (if x.testBit 255 && contextOk x then 2 ^ 255 else 0)
  onUnit "k" k 256 { s with io := { s.io with ctxs := Tbl.set 0 s.io.ctxs k (BitVec.ofNat 256 y) } }

/-- GRID_MAP_WRITE (R402): discarded while a task holds the barrier. -/
def execGridMapWrite (k : Nat) (word : BitVec 512) (s : State) : Out :=
  let x := word.toNat
  onUnit "k" k 4 (s.onGrid k (fun g =>
    if g.holder.isSome then g else { g with map := BitVec.ofNat 256 x, tenant := natBits x 256 8, en := x.testBit 264 }))

/-- IMPORT_WINDOW_WRITE (R402): an open window keeps its BASE, LIMIT and TENANT; both ends are 64 KiB aligned. -/
def execImportWindowWrite (k : Nat) (word : BitVec 512) (s : State) : Out :=
  let x := word.toNat
  onUnit "k" k 16 { s with io := { s.io with imports := Tbl.upd {} s.io.imports k (fun w =>
    let w := { w with src := BitVec.ofNat 256 (x / 2 ^ 256) }
    if w.en then { w with en := x.testBit 136 }
    else { w with en := x.testBit 136, tenant := natBits x 128 8, limit := natBits x 64 64 / 65536 * 65536
                  base := natBits x 0 64 / 65536 * 65536 }) } }

/-- Whether a task of a tenant has a group resident. -/
def State.tenantResident (s : State) (t : Nat) : Bool := s.cores.any (fun c => c.2.resident.any (fun g => g.2.tenant == t))

/-- VF_BINDING_WRITE (R403): discarded while the VF has a task of its tenant resident; so is one of tenant 0xFF, which is bound to no VF
(14 R316; log 117). -/
def execVfBindingWrite (k : Nat) (word : Word) (s : State) : Out :=
  let old := s.binding k
  onUnit "k" k 16 (
    if (vfBound old && s.tenantResident (vfTenant old)) || vfTenant word == 0xFF then s
    else { s with io := { s.io with vfb := Tbl.set 0 s.io.vfb k (word &&& 0xFFFF_FFF8_0000_0000) } })

/-! Words of the queue block without a behaviour of their own (R399, R400). -/

/-- The command words and words with an effect go to their own events; every other word is stored in its fields. -/
def queueBlockWrite (d o n x : Nat) (s : State) : Out :=
  let w : Word := BitVec.ofNat 64 x
  if o < 0x400 then (if n = 16 ∧ o % 16 = 0 then execTaskQueueStateWrite (64 * d + o / 16) (BitVec.ofNat 128 x) s else .next s)
  else if n = 8 ∧ o = 0x1000 then .next (s.onDie d (fun e => { e with disp := { e.disp with steal := x % 2 ^ 20 } }))
  else if n = 8 ∧ o = 0x1008 then .next (s.onDie d (fun e => { e with heaptab := natBits x 6 46 * 64 }))
  else if n = 8 ∧ o = 0x1010 then
    .next (s.onDie d (fun e =>
      let b := if e.fq.en then e.fq.base else natBits x 16 36 * 65536
      { e with fq := { e.fq with en := x.testBit 15, base := b } }))
  else if n = 8 ∧ o = 0x1018 then
    .next (s.onDie d (fun e => { e with fq := { e.fq with lost := if natBits x 48 16 = 0 then 0 else e.fq.lost } }))
  else if n = 8 ∧ o = 0x1020 then .next (s.onDie d (fun e => { e with notify := w &&& 0x8000_0000_0000_0FFF }))
  else if n = 16 ∧ o = 0x1040 then
    match natBits x 125 2 with
    | 0 => execInvalidateAll d (BitVec.ofNat 128 x) s
    | 1 => execInvalidateTenant d (BitVec.ofNat 128 x) s
    | 2 => execInvalidatePages d (BitVec.ofNat 128 x) s
    | _ => invalidate d (BitVec.ofNat 128 x) 4 (fun _ => false) s
  else if n = 16 ∧ o = 0x1080 then execKill d (BitVec.ofNat 128 x) s
  else if n = 32 ∧ o = 0x10C0 then execPreempt d (BitVec.ofNat 256 x) s
  else if n = 16 ∧ o = 0x1100 then execResume d (BitVec.ofNat 128 x) s
  else if n = 8 ∧ o = 0x1140 then execResolve d w s
  else if n = 8 ∧ 0x2000 ≤ o ∧ o < 0x4000 ∧ o % 8 = 0 then
    .next (s.onDc (1024 * d + (o - 0x2000) / 8) (fun _ => { owner := natBits x 56 8, err := x.testBit 32, val := BitVec.ofNat 32 x }))
  else .next s

/-- A write to the I/O block (R401). -/
def ioBlockWrite (o n x : Nat) (s : State) : Out :=
  let w : Word := BitVec.ofNat 64 x
  if n = 8 ∧ o < 0x80 ∧ o % 8 = 0 then execVfBindingWrite (o / 8) w s
  else if n = 8 ∧ 0x800 ≤ o ∧ o < 0xFF8 ∧ o % 8 = 0 then
    .next { s with io := { s.io with roots := Tbl.set 0 s.io.roots ((o - 0x800) / 8) (w &&& 0x800F_FFFF_FFFF_8000) } }
  else if n = 8 ∧ o = 0x1000 then .next { s with io := { s.io with domidx := x % 256 } }
  else if n = 32 ∧ 0x2000 ≤ o ∧ o < 0x4000 ∧ o % 32 = 0 then execContextEntryWrite ((o - 0x2000) / 32) (BitVec.ofNat 256 x) s
  else if n = 64 ∧ 0x4000 ≤ o ∧ o < 0x4100 ∧ o % 64 = 0 then execGridMapWrite ((o - 0x4000) / 64) (BitVec.ofNat 512 x) s
  else if n = 2 ∧ 0x5000 ≤ o ∧ o < 0x5200 ∧ o % 2 = 0 then
    .next { s with io := { s.io with routes := Tbl.set 0 s.io.routes ((o - 0x5000) / 2) (BitVec.ofNat 16 x) } }
  else if n = 64 ∧ 0x6000 ≤ o ∧ o < 0x6400 ∧ o % 64 = 0 then execImportWindowWrite ((o - 0x6000) / 64) (BitVec.ofNat 512 x) s
  else .next s

/-! What the words read as (R399 to R402). -/

/-- FQ and FQCNT (R400). -/
def FaultQueue.ctlWord (q : FaultQueue) : Nat := q.base / 65536 % 2 ^ 36 * 65536 + q.en.toNat * 2 ^ 15 + q.head % 1024
def FaultQueue.cntWord (q : FaultQueue) : Nat := q.lost % 2 ^ 16 * 2 ^ 48 + q.tail % 1024 * 2 ^ 32 + q.unres % 2048

/-- A dependency counter (R364). -/
def DepCnt.word (c : DepCnt) : Nat := c.owner % 256 * 2 ^ 56 + c.err.toNat * 2 ^ 32 + c.val.toNat

/-- The word at an offset of a queue block, with its size; 0 in size where no row names the offset. -/
def State.queueBlockWord (s : State) (d o : Nat) : Nat × Nat :=
  let e := s.die d
  if o < 0x400 then (16, (s.tq (64 * d + o / 16)).word)
  else if o = 0x1000 then (8, e.disp.steal)
  else if o = 0x1008 then (8, e.heaptab)
  else if o = 0x1010 then (8, e.fq.ctlWord)
  else if o = 0x1018 then (8, e.fq.cntWord)
  else if o = 0x1020 then (8, e.notify.toNat)
  else if o = 0x1040 then (16, e.cmd.inval.toNat)
  else if o = 0x1080 then (16, e.cmd.kill.toNat)
  else if o = 0x10C0 then (32, e.cmd.preempt.toNat)
  else if o = 0x1100 then (16, e.cmd.resume.toNat)
  else if o = 0x1140 then (8, e.cmd.resolve.toNat)
  else if 0x2000 ≤ o ∧ o < 0x4000 then (8, (s.dc (1024 * d + (o - 0x2000) / 8)).word)
  else (0, 0)

/-- A grid map and an import window as words (R402). -/
def Grid.word (g : Grid) : Nat := g.en.toNat * 2 ^ 264 + g.tenant % 256 * 2 ^ 256 + g.map.toNat
def Import.word (w : Import) : Nat :=
  w.src.toNat * 2 ^ 256 + w.en.toNat * 2 ^ 136 + w.tenant % 256 * 2 ^ 128 + w.limit % 2 ^ 64 * 2 ^ 64 + w.base % 2 ^ 64

/-- The word at an offset of the I/O block. -/
def State.ioBlockWord (s : State) (o : Nat) : Nat × Nat :=
  if o < 0x80 then (8, (s.binding (o / 8)).toNat)
  else if 0x800 ≤ o ∧ o < 0xFF8 then (8, (Tbl.get 0 s.io.roots ((o - 0x800) / 8)).toNat)
  else if o = 0x1000 then (8, s.io.domidx)
  else if 0x2000 ≤ o ∧ o < 0x4000 then (32, (Tbl.get 0 s.io.ctxs ((o - 0x2000) / 32)).toNat)
  else if 0x4000 ≤ o ∧ o < 0x4100 then (64, (Tbl.get {} s.io.grids ((o - 0x4000) / 64)).word)
  else if 0x5000 ≤ o ∧ o < 0x5200 then (2, (Tbl.get 0 s.io.routes ((o - 0x5000) / 2)).toNat)
  else if 0x6000 ≤ o ∧ o < 0x6400 then (64, (Tbl.get {} s.io.imports ((o - 0x6000) / 64)).word)
  else (0, 0)

/-! BAR 4 (R404). -/

/-- A completion of a host read: its status and data. -/
def State.answer (s : State) (status : Nat) (bs : List Byte) : State :=
  { s with io := { s.io with answers := s.io.answers ++ [(status, bs)] } }

/-- Whether the PF may reach a physical byte: HBM or DDR outside the capsule mirror; HBM is off in STANDBY (19 R427). -/
def State.pfByte (s : State) (pa : Nat) : Bool :=
  match regionOf s.ddr pa with
  | .hbm => s.ctrl.power != 2
  | .ddr => decide (pa < mirrorBase s.ddr)
  | _ => false

/-- The bytes of a VF's access under R339, or none on any failure; whether any lies in a scaled page. -/
def State.vfBytes (s : State) (tenant va n : Nat) (rd wr : Bool) : Option (List PByte × Bool) :=
  let leafAt := fun (a : Nat) => match s.walk tenant a with
    | .leaf e => if leafReason tenant e rd wr false = 0 ∧ !s.homeTierBad e then some e else none
    | _ => none
  let es := (List.range n).map (fun i => leafAt (va + i))
  if es.any Option.isNone then none
  else
    let bs := (es.zip (List.range n)).map (fun e => s.pbyte (e.1.getD 0) (va + e.2))
    if bs.all (fun b => s.exists_ b && windowOk false wr (s.region b)) then
      some (bs, es.any (fun e => pteFmt (e.getD 0) != 0))
    else none

/-- Size of BAR 4 of a function (R398). -/
def bar4Size (fn : Nat) : Nat := if fn = 0 then 2 ^ 42 else 2 ^ 39

/-- HOST_MEMORY_READ (R404). An access of a VF to bytes under a copy in flight waits for it (R246): it reaches memory when it can be
performed (log 135). -/
def execHostMemoryRead (fn off len : Nat) (s : State) : Out :=
  onFn fn (
    if !s.fnOpen fn || decide (bar4Size fn < off + len) then s.answer 1 []
    else if fn = 0 then
      if !(List.range len).all (fun i => s.pfByte (off + i)) then s.answer 1 []
      else s.answer (if s.mem.unc off len then 3 else 0) (s.mem.read off len)
    else
      match s.vfBytes (vfTenant (s.binding (fn - 1))) off len true false with
      | none => (s.answer 2 []).fnErr fn
      | some (bs, _) =>
        if bs.any s.guarded then s
        else
          let (xs, bad) := s.seeBytes 0 0 bs
          s.answer (if bad then 3 else 0) xs)

/-- HOST_MEMORY_WRITE (R404, R233). -/
def execHostMemoryWrite (fn off : Nat) (data : List Byte) (s : State) : Out :=
  onFn fn (
    if !s.fnOpen fn || decide (bar4Size fn < off + data.length) then s
    else if fn = 0 then
      if (List.range data.length).all (fun i => s.pfByte (off + i)) then s.onMem (fun m => m.write off data) else s
    else
      match s.vfBytes (vfTenant (s.binding (fn - 1))) off data.length false true with
      | none => s.fnErr fn
      | some (bs, scaled) => if scaled then s.fnErr fn else if bs.any s.guarded then s else s.putBytes bs data [])

/-- ATS_INVALIDATION (R405): the I/O die drops what it holds for the page; accesses that used it are performed already. -/
def execAtsInvalidation (fn va : Nat) (s : State) : Out :=
  onFn fn { s with io := { s.io with ats := s.io.ats.filter (fun e => !(e.1 == fn && e.2 == va / 4096)) } }

end Sys2Proof.Machine
end

