-- ==== Sys2Proof/Machine/Links.lean ====
section
/-! DEFINITION. Omger links and requests of other devices (18 R409 to R417). A flit is a list of 256 bytes. -/

namespace Sys2Proof.Machine

/-! Flits (R409, R410). -/

/-- CRC-64/ECMA-182: polynomial 0x42F0_E1EB_A9EA_3693, initial value and final exclusive-or zero, most significant bit first. -/
def crc64Byte (crc b : Nat) : Nat :=
  (List.range 8).foldl (fun c _ =>
    if c / 2 ^ 63 % 2 = 1 then (2 * c) % 2 ^ 64 ^^^ 0x42F0_E1EB_A9EA_3693 else (2 * c) % 2 ^ 64) (crc ^^^ (b * 2 ^ 56))
def crc64 (bs : List Byte) : Nat := bs.foldl (fun c b => crc64Byte c b.toNat) 0

/-- Header fields of a flit. -/
def flitHead (f : List Byte) : Nat := leNat (f.take 8)
def fSeq (h : Nat) : Nat := natBits h 52 12
def fAseq (h : Nat) : Nat := natBits h 40 12
def fAckv (h : Nat) : Bool := h.testBit 39
def fNak (h : Nat) : Bool := h.testBit 38
def fVc (h : Nat) : Nat := natBits h 35 3
def fKind (h : Nat) : Nat := natBits h 32 3
def fStop (h : Nat) : Nat := natBits h 24 8

/-- Whether a flit is good: its CRC, its KIND, its channel and its reserved bits (R410). -/
def flitOk (f : List Byte) : Bool :=
  let h := flitHead f
  f.length == 256 && leNat (f.drop 248) == crc64 (f.take 248) && decide (fKind h ≤ 2)
  && !(fKind h == 1 && decide (6 ≤ fVc h)) && natBits h 0 20 == 0

/-- A flit from its header and payload. -/
def mkFlit (head : Nat) (payload : List Byte) : List Byte :=
  let body := leBytes 8 head ++ (payload ++ List.replicate 240 0).take 240
  body ++ leBytes 8 (crc64 body)

/-- The header of a flit that port `p` sends (R410): SEQ of data flits, the last flit accepted, STOP. -/
def Port.head (p : Port) (seq nak vc kind len : Nat) : Nat :=
  seq * 2 ^ 52 + p.rxSeq * 2 ^ 40 + 2 ^ 39 + nak * 2 ^ 38 + vc * 2 ^ 35 + kind * 2 ^ 32 + p.stopOut.toNat * 2 ^ 24 + len * 2 ^ 20

/-- An idle or a rotate flit is sent. -/
def Port.sendIdle (p : Port) (nak : Bool) (kind : Nat) : Port := { p with sent := p.sent ++ [mkFlit (p.head 0 nak.toNat 0 kind 0) []] }

/-- A data flit of a channel is sent and stays in the replay buffer (R411). -/
def Port.sendData (p : Port) (vc seqNo : Nat) : Port :=
  let bytes := (List.range 240).map (fun i => Config.flitByte seqNo i)
  let f := mkFlit (p.head p.txSeq 0 vc 1 ((Config.flitByte seqNo 240).toNat % 16)) bytes
  { p with txSeq := (p.txSeq + 1) % 4096, replay := p.replay ++ [f], sent := p.sent ++ [f] }

/-- The order in which a sender serves its channels (R412): 0, 1 and 5 first, then those of 2 to 4 in turn after the last served. -/
def Port.vcOrder (p : Port) : List Nat :=
  [0, 1, 5] ++ (match p.turn with | 2 => [3, 4, 2] | 3 => [4, 2, 3] | _ => [2, 3, 4])

/-- What leaves next on a channel: the oldest; on channel 4 class 0 first (R419). -/
def Port.nextOn (p : Port) (v : Nat) : Option OutFlit :=
  match p.queued.find? (fun f => f.vc == v && v == 4 && f.cls == 0) with
  | some f => some f
  | none => p.queued.find? (fun f => f.vc == v)

/-- One waiting data flit sent if R411 and R412 allow any. -/
def Port.sendOne (p : Port) (seqNo : Nat) : Port :=
  if p.training ∨ 512 ≤ p.replay.length then p
  else match (p.vcOrder.filter (fun v => !p.stopIn.getLsbD v)).findSome? p.nextOn with
    | none => p
    | some f =>
      { p with queued := p.queued.erase f, turn := if [2, 3, 4].contains f.vc then f.vc else p.turn }.sendData f.vc seqNo

/-- Acknowledged flits leave the replay buffer (R411). -/
def Port.ack (p : Port) (aseq : Nat) : Port :=
  let left := p.replay.dropWhile (fun f => decide ((aseq + 4096 - fSeq (flitHead f)) % 4096 < 2048))
  { p with ackd := aseq, replay := left, resends := if left.length < p.replay.length then 0 else p.resends }

/-- Every stored flit sent again unchanged (R411); after 16 resends of one flit without acceptance the port retrains. -/
def Port.resend (p : Port) : Port :=
  if p.replay.isEmpty then p
  else if 16 ≤ p.resends then { p with resends := 0, training := true }
  else { p with resends := p.resends + 1, sent := p.sent ++ p.replay }

/-- STOP bits from the skid occupancy (R412): set below 24 free slots, cleared from 32 free slots on. -/
def Port.stops (p : Port) : Port :=
  { p with stopOut := BitVec.ofNat 8 ((List.range 8).map (fun v =>
      let free := 48 - Tbl.get 0 p.skid v
      let on := decide (free < 24) || (p.stopOut.getLsbD v && decide (free < 32))
      on.toNat * 2 ^ v)).sum }

/-- A data flit whose CRC is good (R411): accepted when next in order, discarded when accepted before, else rejected. -/
def Port.data (p : Port) (f : List Byte) : Port :=
  let h := flitHead f
  let seq := fSeq h
  if seq = (p.rxSeq + 1) % 4096 then
    ({ p with rxSeq := seq, rejecting := false, skid := Tbl.upd 0 p.skid (fVc h) (· + 1), got := p.got ++ [f] }.stops).sendIdle false 0
  else if (p.rxSeq + 4096 - seq) % 4096 < 2048 then p
  else if p.rejecting then p
  else { p with rejecting := true }.sendIdle true 0

/-- The next lane in turn after the shadow. -/
def nextLane (n : Nat) : Nat := (n + 1) % 9

/-- The shadow takes over the next lane (R413); a weak lane stays the shadow. -/
def Port.rotate (p : Port) : Port := if p.weak.isEmpty then { p with shadow := nextLane p.shadow } else p

/-- A flit arrives at a port that is trained (R411 to R413). -/
def Port.receive (p : Port) (f : List Byte) : Port :=
  if p.training then p
  else if !flitOk f then { p with rejecting := true }.sendIdle true 0
  else
    let h := flitHead f
    let p := { p with stopIn := BitVec.ofNat 8 (fStop h) }
    let p := if fAckv h then p.ack (fAseq h) else p
    let p := if fNak h && fAckv h then p.resend else p
    match fKind h with
    | 1 => p.data f
    | 2 => p.rotate
    | _ => p

def State.onPort (s : State) (n : Nat) (f : Port → Port) : State := { s with ports := Tbl.upd {} s.ports n f }

/-- An entry of the ERRORS list (R430). -/
def State.logError (s : State) (kind die unit detail : Nat) : State :=
  { s with ctrl := { s.ctrl with errors := s.ctrl.errors ++ [{ kind, die, unit, detail, time := s.time }] } }

/-- FLIT_RECEIVE (R411); in STANDBY the ports are off (19 R427). -/
def execFlitReceive (port : Nat) (flit : List Byte) (s : State) : Out :=
  onUnit "port" port 16 (if s.ctrl.power = 2 then s else s.onPort port (fun p => (p.receive flit).sendOne s.seq))

/-- LINK_RETRAIN (R411, R413): the port trains; its traffic waits in the replay buffer. -/
def execLinkRetrain (port : Nat) (s : State) : Out :=
  onUnit "port" port 16 (if s.ctrl.power = 2 then s else s.onPort port (fun p => { p with training := true, resends := 0 }))

/-- Devices to which a port leads are no longer unreachable (R415, log 134). -/
def State.portUp (s : State) (n : Nat) : State :=
  { s with io := { s.io with down := s.io.down.filter (fun d => !(Tbl.get 0 s.io.routes d).getLsbD n) } }

/-- LINK_RETRAIN_COMPLETE (R411, R413): stored flits are sent again; a width below eight lanes is reported. -/
def execLinkRetrainComplete (port lanes : Nat) (s : State) : Out :=
  onUnit "port" port 16 (
    let p := Tbl.get {} s.ports port
    if !p.training || s.ctrl.power == 2 then s
    else
      let n := if 2 ≤ p.weak.length then min lanes 4 else min lanes 8
      let s := s.onPort port (fun p => { p with training := false, resends := 0, lanes := n, rejecting := false, sent := p.sent ++ p.replay })
      let s := s.portUp port
      if n < 8 then s.logError 7 port n 0 else s)

/-- What a nanosecond brings a port: skid slots freed, stop bits announced, a waiting flit sent. -/
def State.portTick (s : State) (n : Nat) : State :=
  if s.ctrl.power = 2 then s else s.onPort n (fun p =>
    let q := { p with skid := (List.range 8).foldl (fun t v =>
      if Config.skidFrees s.seq (8 * n + v) then Tbl.upd 0 t v (· - 1) else t) p.skid }.stops
    let q := if q.stopOut = p.stopOut then q else q.sendIdle false 0
    q.sendOne s.seq)

/-! Requests of other devices (R414, R415). -/

/-- Whether an import window takes a request. -/
def Import.takes (w : Import) (r : RemoteReq) : Bool :=
  w.en && w.src.getLsbD r.src && w.tenant == r.tenant && decide (w.base ≤ r.pa ∧ r.pa + r.len ≤ w.limit)

/-- Whether this device has frozen (R322, R415). -/
def State.frozen (s : State) : Bool := (List.range 4).any (fun d => (s.die d).frozen)

/-- Whether a request is accepted (R415): its bytes exist, lie in the range that its TIER names (15 R338), and are open to an
unprivileged agent; HBM and ports are off in STANDBY (19 R427). -/
def State.accepts (s : State) (r : RemoteReq) : Bool :=
  !s.frozen && s.ctrl.power != 2 && !s.io.down.contains r.src && s.io.imports.any (fun w => w.2.takes r)
  && frameOk s.ddr r.tier r.pa r.len && (List.range r.len).all (fun i =>
    let reg := regionOf s.ddr (r.pa + i)
    reg != .hole && windowOk false (r.kind != .read) reg)

/-- A reply to another device, on the response channel of its request's class (R412). -/
def State.reply (s : State) (req : RemoteReq) (ok : Bool) (bs : List Byte) : State :=
  ({ s with io := { s.io with replies := s.io.replies ++ [(req.src, ok, bs)] } } : State).sendOn
    { vc := if req.cls = 0 then 1 else 3, dev := req.src, tenant := req.tenant, cls := req.cls }

/-- REMOTE_REQUEST (R269, R414, R415): a request for another device goes on to it; one for this device is performed once at its home, or
refused. One for bytes under a copy in flight waits for it (R246): it arrives when it can be performed (log 135). -/
def execRemoteRequest (req : RemoteReq) (s : State) : Out :=
  .next (
    let bs := (List.range req.len).map (fun i => ({ pa := req.pa + i } : PByte))
    let away := match req.dest with | some d => d != s.io.domidx | none => false
    if away then (if s.ctrl.power = 2 then s else s.sendRequest req.tenant req.cls (req.dest.getD 0))
    else if !s.accepts req then
      match req.kind with
      | .write => s
      | _ => s.reply req false []
    else if bs.any s.guarded then s
    else
      match req.kind with
      | .read =>
        let (xs, bad) := s.seeBytes 0 0 bs
        s.reply req (!bad) xs
      | .write => s.putBytes bs req.data []
      | .atom =>
        let (xs, bad) := s.seeBytes 0 0 bs
        if bad then s.reply req false xs
        else
          let (n, _) := atomNew req.op req.ty (leNat xs) req.x.toNat req.y.toNat
          (s.putBytes bs (leBytes req.len n) []).reply req true xs)

/-- PATH_DOWN (R415): the path to a device has been down for longer than 1 ms. -/
def execPathDown (dev : Nat) (s : State) : Out :=
  onUnit "dev" dev 256 (
    let s := { s with io := { s.io with down := if s.io.down.contains dev then s.io.down else dev :: s.io.down } }
    let s := (List.range 4).foldl (fun s b =>
      if (Tbl.get ({} : Grid) s.io.grids b).members.contains dev then s.abandonGrid b 2 else s) s
    s.cores.foldl (fun s c => (c.2.copies.filter (fun x => x.kind == 3 && (s.ctxMembers x.ctx).contains dev)).foldl (fun s x =>
      (s.collRecord c.1 0x23 x dev).retireColl c.1 x 5) s) s)

end Sys2Proof.Machine
end

