-- ==== Sys2Proof/Machine/Sha.lean ====
section
/-! DEFINITION. SHA-384 (FIPS 180-4), which digests of images, measurements and capsules use (14 R328, 19 R421, R422). The spec names the
function and leaves its text to the standard: here its constants come from their definition, the roots of the first primes, and the
working variables are kept as their two halves. -/

namespace Sys2Proof.Machine

/-- The number in bytes, most significant first, and back. -/
def beNat (bs : List Byte) : Nat := bs.foldl (fun a b => 256 * a + b.toNat) 0
def beBytes (n x : Nat) : List Byte := (leBytes n x).reverse

/-- The greatest number whose power `k` is at most `x`, bit by bit below 2^n. -/
def rootFrom (k x : Nat) : Nat → Nat → Nat
  | 0, r => r
  | n + 1, r => rootFrom k x n (if (r + 2 ^ n) ^ k ≤ x then r + 2 ^ n else r)

/-- The first 64 bits of the fraction of the root of order `k` of a number below 512. -/
def rootFraction (k p : Nat) : Nat := rootFrom k (p * 2 ^ (64 * k)) 70 0 % 2 ^ 64

/-- The first 80 primes: below 410, without a smaller factor up to 19. -/
def shaPrimes : List Nat :=
  ((List.range 408).map (· + 2)).filter (fun p => [2, 3, 5, 7, 11, 13, 17, 19].all (fun q => decide (p = q ∨ p % q ≠ 0)))

/-- Right rotations of a 64-bit number by several amounts, added without carry. -/
def turns (x : Nat) (amounts : List Nat) : Nat :=
  amounts.foldl (fun acc n => acc ^^^ (x * 2 ^ (64 - n) % 2 ^ 64 + x / 2 ^ n)) 0

/-- The word behind a window of sixteen words of the schedule. -/
def nextWord (win : List Nat) : Nat :=
  let at_ := fun (i : Nat) => win.getD i 0
  let small := fun (x : Nat) (two : List Nat) (sh : Nat) => turns x two ^^^ x / 2 ^ sh
  (at_ 0 + small (at_ 1) [1, 8] 7 + at_ 9 + small (at_ 14) [19, 61] 6) % 2 ^ 64

/-- A round on the halves (newest first) with the sum of its constant and its word. -/
def mixHalves (halves : List Nat × List Nat) (kw : Nat) : List Nat × List Nat :=
  match halves with
  | ([a, b, c, d], [e, f, g, h]) =>
    let choose := g ^^^ (e &&& (f ^^^ g))
    let most := (a &&& b) ||| (c &&& (a ||| b))
    let sum := turns e [14, 18, 41] + choose + h + kw
    ([(sum + turns a [28, 34, 39] + most) % 2 ^ 64, a, b, c], [(sum + d) % 2 ^ 64, e, f, g])
  | other => other

/-- The rounds of a block: constants to come, the window of the schedule, the halves. -/
def roundsFrom : List Nat → List Nat → List Nat × List Nat → List Nat × List Nat
  | [], _, v => v
  | k :: ks, win, v => roundsFrom ks (win.drop 1 ++ [nextWord win]) (mixHalves v (k + win.headD 0))

/-- The eight words of a chaining value after the words of a block. -/
def absorb (constants chain words : List Nat) : List Nat :=
  let v := roundsFrom constants words (chain.take 4, chain.drop 4)
  List.zipWith (fun x y => (x + y) % 2 ^ 64) chain (v.1 ++ v.2)

/-- `n` bytes at a time. -/
def inChunks (n : Nat) : Nat → List Byte → List (List Byte)
  | 0, _ => []
  | count + 1, m => m.take n :: inChunks n count (m.drop n)

/-- SHA-384 of a message: 48 bytes. -/
def sha384 (m : List Byte) : List Byte :=
  let zeros := (239 - m.length % 128) % 128
  let padded := m ++ 0x80 :: (List.replicate zeros 0 ++ beBytes 16 (8 * m.length))
  let start := ((shaPrimes.drop 8).take 8).map (rootFraction 2)
  let constants := shaPrimes.map (rootFraction 3)
  let blocks := (inChunks 128 (padded.length / 128) padded).map (fun b => (inChunks 8 16 b).map beNat)
  ((blocks.foldl (absorb constants) start).take 6).flatMap (beBytes 8)

end Sys2Proof.Machine
end

