-- ==== Sys2Proof/Machine/Freeze.lean ====
section
/-! DEFINITION. Reference time (16 R369, R370), relocks (01 R13, 16 R372), epochs (14 R320), freezes (14 R321 to R323), errors and what
follows from them (16 R376, 17 R386, R390), and reset (19 R420). -/

namespace Sys2Proof.Machine


/-! Epochs (R320). -/

/-- EPOCH events on every core when reference time has passed a multiple of 2^40 ns that has none yet. -/
def State.markEpoch (s : State) : State :=
  if s.time / 2 ^ 40 ≤ s.ctrl.epoch then s
  else
    let s := allCores.foldl (fun s k => s.deviceEvent k 0x12 s.time) s
    { s with ctrl := { s.ctrl with epoch := s.time / 2 ^ 40 } }

/-- EPOCH (R320). -/
def execEpoch (s : State) : Out := .next s.markEpoch

/-! Relocks (R13, R372, R425). -/

/-- RELOCK_BEGIN (R13, R425): a change of step that is due begins at a core-cycle boundary. -/
def execRelockBegin (die : Nat) (s : State) : Out := onUnit "die" die 4 (s.beginRelock die)

/-- The end of a relock whose 2,000 increments of reference time are over (R13, R372). -/
def State.endRelock (s : State) (d : Nat) : State :=
  let c := (s.die d).clk
  if c.relock ≠ some 0 then s
  else (s.onClk d (fun c => { c with relock := none, step := c.goal.1 })).dvfs d c.step c.goal.1 c.goal.2 1

/-- RELOCK_END (R13). -/
def execRelockEnd (die : Nat) (s : State) : Out := onUnit "die" die 4 (s.endRelock die)

/-! Reference time (R370). -/

/-- A rate kept within 500 parts per million. -/
def clampRate (r : Int) : Int := max (-500000) (min 500000 r)

/-- An offset of PTP time measured: the first lock steps forward or slews back, later ones only slew. -/
def State.ptpOffset (s : State) (off : Int) : State :=
  let p := s.ctrl.ptp
  let put := fun (s : State) (p : Ptp) => { s with ctrl := { s.ctrl with ptp := p } }
  if !p.everLocked then
    if 0 < off then
      let s := { s with time := s.time + off.toNat }
      let s := allCores.foldl (fun s k => s.deviceEvent k 0x12 s.time) s
      let s := put s { lock := 1, everLocked := true, slewing := false, offset := 0, rate := 0 }
      { s with ctrl := { s.ctrl with epoch := s.time / 2 ^ 40 } }
    else if off = 0 then put s { lock := 1, everLocked := true, slewing := false, offset := 0, rate := 0 }
    else put s { lock := 1, everLocked := true, slewing := decide (off < -1000), offset := off, rate := -500000 }
  else
    let slew := p.slewing && decide (off < -1000)
    put s { p with lock := 1, slewing := slew, offset := off, rate := if slew then -500000 else clampRate (Config.ptpRate s.seq) }

/-- PTP_MESSAGE (R370). -/
def execPtpMessage (time : Nat) (s : State) : Out := .next (s.ptpOffset ((time : Int) - (s.time : Int)))

/-- The offset nearest to a known one that a second boundary now stands for: the pulse says nothing of whole seconds. -/
def ppsOffset (known : Int) (time : Nat) : Int :=
  known + ((-(time : Int) - known + 500000000) % 1000000000 - 500000000)

/-- PPS_PULSE (R370): a second boundary, known once the clock has locked. -/
def execPpsPulse (s : State) : Out :=
  .next (if s.ctrl.ptp.everLocked then s.ptpOffset (ppsOffset s.ctrl.ptp.offset s.time) else s)

/-- PTP_LOSS (R370): the last rate is held. -/
def execPtpLoss (s : State) : Out :=
  .next (if s.ctrl.ptp.everLocked then { s with ctrl := { s.ctrl with ptp := { s.ctrl.ptp with lock := 2 } } } else s)

/-! Freezes (R321 to R323). -/

/-- The FREEZE marker (R319). -/
def Freeze.payload (f : Freeze) : Nat := f.origin % 256 * 2 ^ 56 + f.odie % 8 * 2 ^ 53 + f.cause % 256 * 2 ^ 45 + f.handle % 2 ^ 32 * 2 ^ 13

/-- A recorder freezes (R322): the events it has accepted, then its marker or MISS, then FRZ. What still waited has not been accepted. -/
def Recorder.freeze (r : Recorder) (mark : Option (BitVec 128)) : Recorder :=
  let r := r.buf.foldl Recorder.put r
  let r := match mark with
    | some ev => r.put ev
    | none => { r with miss := true }
  { r with buf := [], late := [], held := [], frz := true }

/-- A core stops, and its recorder freezes (R322). -/
def State.stopCore (s : State) (k : Nat) (f : Freeze) (miss : Bool) : State :=
  if (s.core k).rcd.frz then s
  else
    let mark := if miss then none else some (evWord 0x3F 0 0xFF s.time f.payload)
    s.onCore k (fun c => { c with rcd := c.rcd.freeze mark, ctl := { c.ctl with stopped := true } })

/-- The C-die whose fault queue takes the record of a fatal condition. -/
def originDie (odie : Nat) : Nat := if odie < 4 then odie else 0

/-- A die stops under a freeze (R322): a C-die with its cores, or an I/O die (codes 4 and 5). -/
def State.stopDie (s : State) (d : Nat) (f : Freeze) (miss : List Nat) : State :=
  if d < 4 then
    let s := s.onDie d (fun x => { x with frozen := true })
    (coresOf d).foldl (fun s k => s.stopCore k f (miss.contains k)) s
  else { s with ctrl := { s.ctrl with ioFrozen := if s.ctrl.ioFrozen.contains d then s.ctrl.ioFrozen else d :: s.ctrl.ioFrozen } }

/-- Whether a die has stopped under a freeze. -/
def State.dieStopped (s : State) (d : Nat) : Bool := if d < 4 then (s.die d).frozen else s.ctrl.ioFrozen.contains d

/-- FATAL_CONDITION (R321 to R323): nothing once its origin has frozen. The agent's core, or its die, stops at once. No record is written
when the fault-queue control itself has failed (cause 2, structure 2). -/
def State.fatal (s : State) (odie core cause strct : Nat) : State :=
  if if core < 192 then (s.core core).rcd.frz else s.dieStopped odie then s
  else
    let d := originDie odie
    let one := cause == 1
    let r : RecHead :=
      { code := 0x29, agent := 6, tenant := 0xFF, core := if one then core else 0xFF
        body := (if one then strct % 256 else 0xFF) * 2 ^ 248 + (if one then core % 256 else 0xFF) * 2 ^ 240 + cause % 256 * 2 ^ 230
          + odie % 8 * 2 ^ 227 }
    let (s, h) := if cause = 2 ∧ strct = 2 then (s, 0) else s.record d r [] { agent := 6, core := 0xFF, code := 0x29 }
    let f : Freeze := { time := s.time, origin := if core < 192 then core else 0xFF, odie, cause, handle := h }
    let s := { s with ctrl := { s.ctrl with freezes := s.ctrl.freezes ++ [f], serial := s.ctrl.serial + (if s.ctrl.freezes.isEmpty then 1 else 0) } }
    if core < 192 then s.stopCore core f false else s.stopDie odie f []

/-- FATAL_CONDITION: cause codes 0 and from 8 on are reserved (R321). -/
def execFatalCondition (odie core cause strct : Nat) (s : State) : Out :=
  if cause = 0 ∨ 8 ≤ cause then .fault (.noSuchUnit "cause" cause) else onUnit "odie" odie 6 (s.fatal odie core cause strct)

/-- The broadcast that a die receives first: one of those on their way. -/
def firstHeard (seq : Nat) : List Freeze → Option Freeze
  | [] => none
  | [f] => some f
  | f :: fs => if Config.pick seq (30000000 + fs.length) then some f else firstHeard seq fs

/-- FREEZE_RECEIPT (R322, R323): the die stops. -/
def State.receiveFreeze (s : State) (d : Nat) (miss : List Nat) : State :=
  if s.dieStopped d then s
  else match firstHeard (s.seq + d) s.ctrl.freezes with
    | none => s
    | some f => s.stopDie d f miss

def execFreezeReceipt (die : Nat) (miss : List Nat) (s : State) : Out := onUnit "die" die 6 (s.receiveFreeze die miss)

/-- No die hears of a freeze later than 2,000 ns after it (R323). -/
def State.freezeDue (s : State) : State :=
  match s.ctrl.freezes with
  | [] => s
  | f :: _ => if s.time < f.time + 2000 then s else (List.range 6).foldl (fun s d => s.receiveFreeze d []) s

/-! Lanes (R7, R413). -/

/-- The next lane in turn of a Dravim link. -/
def nextDravim (n : Nat) : Nat := (n + 1) % max 1 Config.dravimLanes

/-- The C-die at one end of Dravim link `n`: links 0 to 5 join two C-dies, 6 to 13 a C-die and an I/O die. -/
def dravimEnd (n : Nat) : Nat := if n < 6 then [0, 0, 0, 1, 1, 2].getD n 0 else (n - 6) % 4

/-- A rotation of a link whose next lane in turn, weak lanes and lanes over the error rate are given (R413): the shadow and the
weak lanes after it, the lanes newly found weak, and whether there are more weak lanes than the shadow covers. The first weak lane is
the permanent shadow. -/
def rotation (next : Nat) (old found : List Nat) : Nat × List Nat × List Nat × Bool :=
  let new := (found.filter (fun l => !old.contains l)).dedup
  let weak := old ++ new
  (weak.headD next, weak, new, decide (2 ≤ weak.length) && !new.isEmpty)

/-- The shadow lane of a Dravim link takes over the next lane (R413); a failure that the shadow does not cover is fatal (R321). -/
def State.rotateDravim (s : State) (n : Nat) (found : List Nat) : State :=
  let p : Dravim := Tbl.get {} s.ctrl.dravim n
  let (sh, weak, new, lost) := rotation (nextDravim p.shadow) p.weak (found.filter (· < Config.dravimLanes))
  let s : State := { s with ctrl := { s.ctrl with dravim := Tbl.set {} s.ctrl.dravim n { shadow := sh, weak } } }
  let s := new.foldl (fun s l => s.logError 6 (dravimEnd n) l n) s
  if lost then s.fatal (dravimEnd n) 0xFF 3 0xFF else s

/-- The same of an Omger port, announced by a rotate flit; a second weak lane makes the port retrain. -/
def State.rotatePort (s : State) (port : Nat) (found : List Nat) : State :=
  let p : Port := Tbl.get {} s.ports port
  if p.training then s
  else
    let (sh, weak, new, lost) := rotation (nextLane p.shadow) p.weak (found.filter (· < 9))
    let s := s.onPort port (fun p =>
      { (if sh = p.shadow then p else p.sendIdle false 2) with shadow := sh, weak := weak, training := lost, resends := if lost then 0 else p.resends })
    new.foldl (fun s l => s.logError 5 port l 0) s

/-- LANE_ROTATION (R413): ports 0 to 15, then the Dravim links; in STANDBY they are off (19 R427). -/
def execLaneRotation (port : Nat) (weak : List Nat) (s : State) : Out :=
  onUnit "port" port 30 (
    if s.ctrl.power = 2 then s else if port < 16 then s.rotatePort port weak else s.rotateDravim (port - 16) weak)

/-! Errors (R376, R386, R390). -/

/-- Structures whose uncorrectable errors freeze the package (R321 cause 0x01, R386). -/
def fatalStruct (n : Nat) : Bool := [9, 10, 11, 14].contains n

/-- Structures that fetch again what fails its check: counted as corrected (R386). -/
def refetched (n : Nat) : Bool := [4, 5, 6, 13].contains n

/-- The row of an item, for a spare (R390): a vector register row, a scratchpad row of 512 bytes, a tile, a slot. -/
def rowOf (strct u : Nat) : Nat := if strct = 3 then u / 512 else u

/-- What an uncorrectable error does to the item it hit (R386). -/
def State.corrupt (s : State) (k strct u v : Nat) : State :=
  match strct with
  | 0 =>
    match (s.core k).vregOwner u with
    | some (i, base, r) =>
      s.onTeam k i (fun t => t.onRegs (fun x =>
        { x with v := Tbl.upd {} x.v (1024 * r + base + v % 32) (fun c => { c with pz := true }) }))
    | none => s
  | 1 =>
    match (s.core k).laneOwner u with
    | some (i, l) => s.onTeam k i (fun t => t.onRegs (fun x => { x with c := Tbl.upd {} x.c (8 * l + v % 8) (fun c => { c with pz := true }) }))
    | none => s
  | 2 =>
    let t := s.team k u
    if t.st = 1 ∨ t.st = 2 then
      let (s, _) := s.teamRecord k u t.path.pc (poison 3 (v % 64) 0) (countLanes t.id.lanes t.regs.rpm)
      s.haltTeam k u 2
    else s
  | 3 => s.onMem (fun m => m.spoil (winBase k + u % 0x30_0000))
  | 4 => s.onTabs k (fun t => { t with l1 := Tbl.erase u t.l1 })
  | 5 => s.onTabs k (fun t => { t with meta_ := Tbl.erase u t.meta_ })
  | 6 => s.onTabs k (fun t => { t with icache := Tbl.erase u t.icache })
  | 7 => s.onTile k (u % 16) (fun t => { t with pz := Tbl.set false t.pz (v % 4096) true })
  | 8 => s.onMat k (fun m => { m with slots := Tbl.upd {} m.slots (u % 8) (fun w => { w with pz := Tbl.set false w.pz v true }) })
  | 12 => s.onCore k (fun c => { c with rcd := { c.rcd with bad := Tbl.set false c.rcd.bad (u % 4096) true } })
  | 13 => s.onTabs k (fun t => { t with tlb := t.tlb.eraseIdx u })
  | _ => s

/-- The item of the last error of a structure remembered for its spare. -/
def State.noteRow (s : State) (k strct u : Nat) : State :=
  s.onCtl k (fun c => { c with errs := Tbl.upd {} c.errs strct (fun e => { e with row := rowOf strct u }) })

/-- The counter of the controller for a memory address (R376): 0 to 7 the HBM stacks, 8 to 15 the DDR channels. -/
def memUnit (ddr pa : Nat) : Nat := if pa < 0x80_0000_0000 then hbmStack pa else 8 + (pa - 0x100_0000_0000) * 8 / max 1 ddr

/-- The counter of the memory-side cache slice that holds an address. -/
def sliceUnit (pa : Nat) : Nat := 16 + 16 * homeDie pa + homeSlice pa

/-- An error of HBM, the DDR tier or the memory-side cache, in its counter, counted by the controller, with windows from reset release; a lasting fault is listed with
its die (4 and 5 are the I/O dies) and its stack, channel or slice (R390, R430). -/
def State.countMem (s : State) (u : Nat) (unc : Bool) : State :=
  let c := s.ctrl
  let win := (s.time - c.released) / 10000000000
  let errs := c.memErrs.map (fun e => (e.1, { e.2.expire s.time with ce := if c.memWin < win then 0 else e.2.ce }))
  let old := (Tbl.get {} errs u).last
  let errs := Tbl.upd {} errs u (fun e => if unc then e.addUe s.time else e.addCe)
  let s := { s with ctrl := { c with memErrs := errs, memWin := win } }
  if old || !(Tbl.get {} errs u).last then s
  else if u < 8 then s.logError 2 (u / 2) u 0
  else if u < 16 then s.logError 3 (4 + (u - 8) / 4) (u - 8) 0
  else s.logError 4 ((u - 16) / 16) (u % 16) 0

/-- ERROR_DETECTION (R376, R386). -/
def execErrorDetection (site : ErrorSite) (unc : Bool) (s : State) : Out :=
  match site with
  | .core core strct u v =>
    if 15 ≤ strct then .fault (.noSuchUnit "structure" strct)
    else onUnit "core" core 192 (
      if !unc then (s.countCe core strct).noteRow core strct u
      else if refetched strct then ((s.corrupt core strct u v).countCe core strct).noteRow core strct u
      else
        let s := (s.countUe core strct).noteRow core strct u
        if fatalStruct strct then s.fatal (dieOfCore core) core 1 strct else s.corrupt core strct u v)
  | .mem pa =>
    .next (match regionOf s.ddr pa with
      | .hbm | .ddr =>
        let s := s.countMem (memUnit s.ddr pa) unc
        if unc then s.onMem (fun m => m.spoil pa) else s
      | .scratch k o =>
        let s := ((if unc then s.countUe k 3 else s.countCe k 3)).noteRow k 3 o
        if unc then s.onMem (fun m => m.spoil pa) else s
      | _ => s)
  | .slice pa =>
    .next (match regionOf s.ddr pa with
      | .hbm | .ddr =>
        let s := s.countMem (sliceUnit pa) unc
        if unc then s.onMem (fun m => m.spoil pa) else s
      | _ => s)

/-- Every core's error counters as reference time passes (R376). -/
def State.rollErrs (s : State) : State :=
  ((s.cores.filter (fun k => !k.2.ctl.errs.isEmpty)).map Prod.fst).foldl (fun s k => s.onCtl k (·.rollErrs s.time)) s

/-- ERROR_WINDOW_EXPIRY (R376): a window ends and the next begins. -/
def execErrorWindowExpiry (core : Nat) (s : State) : Out := onUnit "core" core 192 (s.onCtl core (·.rollErrs s.time))

/-- UE_EXPIRY (R376): an uncorrectable error is 24 hours old. -/
def execUeExpiry (core k : Nat) (s : State) : Out :=
  if 15 ≤ k then .fault (.noSuchUnit "structure" k)
  else onUnit "core" core 192 (
    s.onCtl core (fun c => { c with errs := Tbl.upd {} c.errs k (·.expire s.time) }))

/-- Structures with spare rows (R390). -/
def spareable (k : Nat) : Bool := [0, 3, 7, 8].contains k

/-- LASTING_FAULT_ACTION (R390): the row is spared, or the core is retired; a record, and LAST falls. Of the ERRORS entry the unit is the
structure or the core (19 R430); its detail, the core and row or the structure, is the model's choice (log 136). -/
def execLastingFaultAction (core k : Nat) (s : State) : Out :=
  if 15 ≤ k then .fault (.noSuchUnit "structure" k)
  else onUnit "core" core 192 (
    let c := (s.core core).ctl
    let e : ErrCnt := Tbl.get {} c.errs k
    if !e.last then s
    else
      let spare := spareable k && decide (Tbl.get 0 c.spares k < 2)
      let s := s.onCtl core (fun c =>
        { c with errs := Tbl.upd {} c.errs k (fun e =>
          { e with last := false, rows := if spare then e.rows ++ [e.row] else e.rows })
                 spares := if spare then Tbl.upd 0 c.spares k (· + 1) else c.spares
                 retired := c.retired || !spare })
      let r : RecHead :=
        { code := 0x28, agent := 6, tenant := 0xFF, core := core
          body := k * 2 ^ 248 + core * 2 ^ 240 + (if spare then 0 else 1) * 2 ^ 238 }
      let s := (s.record (dieOfCore core) r [] { agent := 6, core := core, code := 0x28 }).1
      s.logError (if spare then 1 else 0) (dieOfCore core) (if spare then k else core) (if spare then core * 2 ^ 16 + e.row else k))

/-- Whether a resident group holds a row of a structure. -/
def State.rowHeld (s : State) (k strct row : Nat) : Bool :=
  let c := s.core k
  match strct with
  | 0 => (c.vregOwner row).isSome
  | 3 => c.resident.any (fun g => decide (g.2.base < 512 * row + 512 ∧ 512 * row < g.2.base + g.2.size))
  | _ => c.mat.holder.isSome

/-- ROW_SPARE_EFFECT (R390): no resident group holds a row that is spared; it reads zero. -/
def execRowSpareEffect (core k : Nat) (s : State) : Out :=
  if 15 ≤ k then .fault (.noSuchUnit "structure" k)
  else onUnit "core" core 192 (
    match (Tbl.get ({} : ErrCnt) (s.core core).ctl.errs k).rows.find? (fun r => !s.rowHeld core k r) with
    | none => s
    | some row =>
      let s := s.onCtl core (fun c => { c with errs := Tbl.upd {} c.errs k (fun e => { e with rows := e.rows.erase row }) })
      match k with
      | 3 => s.onMem (fun m =>
          let lo := winBase core + 512 * row
          { bytes := Tbl.clear lo (lo + 512) m.bytes, bad := Tbl.clear lo (lo + 512) m.bad })
      | 7 => s.onMat core (fun m => { m with tiles := Tbl.erase row m.tiles })
      | 8 => s.onMat core (fun m => { m with slots := Tbl.erase row m.slots })
      | _ => s)

/-! Reset (R420). -/

/-- What a core keeps across a reset: its retirement and its used spares (R390). -/
def Core.afterReset (c : Core) : Core := { ctl := { retired := c.ctl.retired, spares := c.ctl.spares } }

/-- The recorder of a released core: its EPOCH event (R320). -/
def Recorder.released (time : Nat) : Recorder := { ring := [(0, evWord 0x12 0 0xFF time time)] }

/-- DDRSIZE as a boot finds it (R231): eight RDIMMs of up to 256 GiB (R7, R14). -/
def ddrSize (n : Nat) : Nat := 8 * min n (2 ^ 38)

/-- A retention slot at the boot of step `seq` (R331): kept, replaced by its mirror copy, or lost. -/
def Store.check (st mirror : Store) (seq i : Nat) : Store :=
  if st.st ≠ 1 then { st with st := if st.st = 3 then 3 else 0 }
  else if Config.slotGood seq i then st
  else if mirror.st = 1 ∧ Config.mirrorGood seq i then { mirror with mirrored := true, views := [] }
  else { st := 3, serial := st.serial, time := st.time, cause := st.cause }

/-- The mirror of the stores (R330, R331): a copy of each that is stored, none without a DDR tier. -/
def mirrorOf (ddr : Nat) (stores : Tbl Store) : Tbl Store := if ddr = 0 then [] else stores.filter (fun e => e.2.st == 1)

/-- The device from step 2 of reset on (R420): dies, memories, links and the I/O block start anew; a core keeps its retirement. The mailbox
words and what the controller has read or been told stay as they are: the rules do not say that a warm reset gives the control word of
R428 its reset value, and that it keeps it is the model's choice (log 137). -/
def State.resetFrom2 (s : State) : State :=
  let cores : Tbl Core := (s.cores.map (fun k => (k.1, k.2.afterReset))).filter (fun k => k.2 ≠ {})
  { cores := cores, mem := s.mem, time := s.time, ddr := s.ddr, seq := s.seq, agenda := s.agenda
    ctrl := { s.ctrl with boot := 1, cfg := true, power := 0, powerFor := 0, powers := [], dravim := [], memWin := 0
                          freezes := [], assembled := false, dropped := none, resetHeld := false, trip := false, ioFrozen := [] } }

/-- Step 3 of reset (R331): every retention slot is checked, and restored from the mirror where needed. -/
def State.checkStores (s : State) : State :=
  let c := s.ctrl
  let copies := if s.ddr = 0 then [] else c.mirror
  { s with ctrl := { c with stores := (c.stores.map (fun e => (e.1, e.2.check (Tbl.get {} copies e.1) s.seq e.1))).filter (fun e => e.2 ≠ {}) } }

/-- Step 6 of reset: the dies run at the boot step; every recorder holds an EPOCH event (R320), every error window starts (R376). -/
def State.releaseDies (s : State) : State :=
  let s : State := { s with ctrl := { s.ctrl with boot := 6, epoch := s.time / 2 ^ 40, released := s.time, sensed := s.time } }
  if s.time = 0 then s else allCores.foldl (fun s k => s.onCore k (fun c =>
    { c with rcd := Recorder.released s.time, ctl := { c.ctl with winStart := s.time } })) s

/-- Whether a capsule assembly is in progress (R324). -/
def State.assembling (s : State) : Bool := !s.ctrl.freezes.isEmpty && !s.ctrl.assembled

/-- WARM_RESET (R420): held while a capsule is assembled (R324); it repeats steps 2 to 7, so that step 1 must have verified an image. -/
def State.warmReset (s : State) : State :=
  if s.ctrl.boot = 0 ∨ 8 ≤ s.ctrl.boot then s
  else if s.assembling then { s with ctrl := { s.ctrl with resetHeld := true } } else s.resetFrom2

def execWarmReset (s : State) : Out := .next s.warmReset

/-- What the controller keeps without power: flash, fuses, retirements, and retention SRAM unless standby power goes too. -/
def Ctrl.unpowered (c : Ctrl) (standby : Bool) : Ctrl :=
  { boot := 0, cfg := false, images := c.images, upload := c.upload, nextSlot := c.nextSlot, active := c.active, svn := c.svn
    bootSvn := c.svn, errors := c.errors, serial := c.serial, lms := c.lms, stores := if standby then [] else c.stores }

/-- Reference time as standby power keeps it, or as the controller's clock finds it (16 R370). -/
def State.standbyTime (s : State) (standby : Bool) : Nat := if standby then Config.standbyClock s.seq else s.time

/-- POWER_LOSS (R330, R390): flash, fuses and retirements stay; with standby power, retention SRAM and reference time too. -/
def execPowerLoss (standby : Bool) (s : State) : Out :=
  .next { cores := (s.cores.map (fun k => (k.1, k.2.afterReset))).filter (fun k => k.2 ≠ {}), ctrl := s.ctrl.unpowered standby
          time := s.standbyTime standby, ddr := s.ddr, seq := s.seq, agenda := s.agenda }

/-- Zero bytes, magic and digest of a firmware image against its header, its SVN and its two signatures (R421, R422). -/
def imageOk (img : List Byte) (svn : Nat) : Bool :=
  let zeros := fun (a b : Nat) => ((img.drop a).take (b - a)).all (· == 0)
  let body := img.drop 2048
  let signed := img.take 128
  decide (2048 ≤ img.length) && img.take 8 == [0x4D, 0x4C, 0x44, 0x58, 0x46, 0x57, 0x49, 0x4D]
  && leNat ((img.drop 8).take 8) == body.length && zeros 28 32 && zeros 80 128 && zeros 1836 2048
  && (img.drop 32).take 48 == sha384 body && decide (svn ≤ leNat ((img.drop 24).take 4))
  && Config.ecdsaVerifies signed ((img.drop 128).take 96) && Config.lmsVerifies signed ((img.drop 224).take 1612)

/-- Whether the image in a flash slot passes R422; of what manufacture left there the spec says nothing. -/
def State.slotPasses (s : State) (i : Nat) : Bool :=
  match Tbl.get [] s.ctrl.images i with
  | [] => Config.factoryPasses i s.ctrl.svn
  | img => imageOk img s.ctrl.svn

/-- Step 1 of reset (R422): the image of the slot that boots next is verified, else the other's, else the device stays in recovery. -/
def State.verifyImage (s : State) : State :=
  let a := s.ctrl.nextSlot
  let put := fun (boot slot : Nat) => ({ s with ctrl := { s.ctrl with boot := boot, cfg := true, active := slot } } : State)
  if s.slotPasses a then put 1 a else if s.slotPasses (1 - a) then put 1 (1 - a) else put 8 s.ctrl.active

/-- The end of the step of reset that is under way (R420). -/
def State.bootStep (s : State) : State :=
  let put := fun (s : State) (n : Nat) => ({ s with ctrl := { s.ctrl with boot := n } } : State)
  match s.ctrl.boot with
  | 9 => s.verifyImage
  | 1 => put { s with ddr := ddrSize Config.rdimmBytes } 2
  | 2 => put s.checkStores 3
  | 3 => put { s with mem := {}, ctrl := { s.ctrl with mirror := mirrorOf s.ddr s.ctrl.stores } } 4
  | 4 => put { s with ctrl := { s.ctrl with bootRetired := (s.cores.filter (fun k => k.2.ctl.retired)).map Prod.fst, bootSvn := s.ctrl.svn } } 5
  | 5 => s.releaseDies
  | 6 => put s 7
  | _ => s

/-- A nanosecond of a reset (R420): the PF's configuration space becomes ready in step 1, and the step under way ends when it ends. -/
def State.bootTick (s : State) : State :=
  let s : State := if s.ctrl.boot = 9 ∧ Config.cfgReady s.seq then { s with ctrl := { s.ctrl with cfg := true } } else s
  if Config.bootDone s.seq then s.bootStep else s

/-- POWER_ON_RESET (R420): step 1 begins, with nothing of the last session but what outlives power. -/
def execPowerOnReset (standby : Bool) (s : State) : Out :=
  .next { s.resetFrom2 with mem := {}, time := s.standbyTime standby, ctrl := { s.ctrl.unpowered standby with boot := 9 } }

end Sys2Proof.Machine
end

