-- ==== Sys2Proof/Machine/Capsule.lean ====
section
/-! DEFINITION. The capsule store and its capsules (14 R324 to R333): assembly, the event stream, redaction, signatures. -/

namespace Sys2Proof.Machine

/-! Measurements (19 R422). -/

/-- Firmware measurement 0: the body digest of the image that runs. -/
def State.measurement0 (s : State) : List Byte :=
  match Tbl.get [] s.ctrl.images s.ctrl.active with
  | [] => (List.range 48).map Config.factoryDigest
  | img => (img.drop 32).take 48

/-- Measurement 1: fuse contents, retirements and DDRSIZE as the boot found them. -/
def State.measurement1 (s : State) : List Byte :=
  sha384 (Config.fuseBytes s.ctrl.bootSvn ++ Config.retireBytes s.ctrl.bootRetired ++ leBytes 8 s.ddr)

/-! The event stream (R324, R327). -/

/-- A slot of a ring with its full time. -/
structure RingEvent where
  core : Nat
  slot : Nat
  ev : BitVec 128
  bad : Bool
  full : Nat
deriving DecidableEq, Repr

/-- TIME of an event (R316), its type and its tenant. -/
def evTime (e : BitVec 128) : Nat := natBits e.toNat 64 46
def evType (e : BitVec 128) : Nat := natBits e.toNat 122 6
def evTenant (e : BitVec 128) : Nat := natBits e.toNat 110 8

/-- Full times reconstructed backwards, latest slot first (R324); a damaged slot has that of the next (R327). -/
def fullTimes (core : Nat) : Nat → List (Nat × BitVec 128 × Bool) → List RingEvent
  | _, [] => []
  | limit, (slot, ev, bad) :: es =>
    let t := if bad then limit else limit - (limit + 2 ^ 46 - evTime ev) % 2 ^ 46
    { core, slot, ev := if bad then 0 else ev, bad, full := t } :: fullTimes core t es

/-- The slots of a ring that hold an event or are damaged, latest first. -/
def Recorder.latestFirst (r : Recorder) : List (Nat × BitVec 128 × Bool) :=
  ((List.range 4096).map (fun i =>
    let n := (r.wptr + 4095 - i) % 4096
    (n, Tbl.get 0 r.ring n, Tbl.get false r.bad n))).filter (fun e => decide (evType e.2.1 ≠ 0) || e.2.2)

/-- The events of one ring in ring order. -/
def Recorder.stream (r : Recorder) (core limit : Nat) : List RingEvent := (fullTimes core limit r.latestFirst).reverse

/-- An event put behind those of no later time. -/
def putEvent (e : RingEvent) : List RingEvent → List RingEvent
  | [] => [e]
  | x :: xs => if e.full < x.full then e :: x :: xs else x :: putEvent e xs

/-- The event stream of a store: by full time, core, ring order. -/
def Store.events (st : Store) : List RingEvent :=
  (allCores.flatMap (fun k => (Tbl.get ({} : Recorder) st.rings k).stream k (st.time + 2000))).foldl (fun l e => putEvent e l) []

/-! The store (R324, R325). -/

/-- The earliest FREEZE marker: its time, origin, origin die and cause (R323). -/
def earliest : List (Nat × Nat × Nat × BitVec 128) → Option (Nat × Nat × Nat × BitVec 128)
  | [] => none
  | m :: ms =>
    match earliest ms with
    | none => some m
    | some b => if b.1 < m.1 ∨ (b.1 = m.1 ∧ (b.2.1 < m.2.1 ∨ (b.2.1 = m.2.1 ∧ b.2.2.1 < m.2.2.1))) then some b else some m

/-- Markers of the rings: time below 2^46 taken back from a limit, origin, core, event. -/
def State.markers (s : State) (limit : Nat) : List (Nat × Nat × Nat × BitVec 128) :=
  allCores.flatMap (fun k =>
    (((s.core k).rcd.stream k limit).filter (fun e => decide (evType e.ev = 0x3F))).map (fun e =>
      (e.full, natBits e.ev.toNat 56 8, k, e.ev)))

/-- The records of a die's ring that are whole, oldest first: first slot and continuation slots (R313, R377). -/
def wholeRecords (q : FaultQueue) (rd : Nat → BitVec 512) : Nat → Nat → List (Nat × BitVec 512 × List (BitVec 512))
  | 0, _ => []
  | fuel + 1, i =>
    if 1024 ≤ i then []
    else
      let n := (q.tail + i) % 1024
      let w := rd n
      let h := natBits w.toNat 352 32
      let more := natBits w.toNat 262 5
      if h = 0 ∨ h ≠ n + 1024 * Tbl.get 0 q.gens n ∨ 1024 < i + 1 + more then wholeRecords q rd fuel (i + 1)
      else (n, w, (List.range more).map (fun j => rd ((n + 1 + j) % 1024))) :: wholeRecords q rd fuel (i + 1 + more)

/-- A slot of a die's fault queue as it stands in memory. -/
def State.queueSlot (s : State) (d n : Nat) : BitVec 512 := BitVec.ofNat 512 (s.mem.readLe ((s.die d).fq.base + 64 * n) 64)

/-- The records of a die's fault queue as a store keeps them: die, slot, word, continuation slots. -/
def State.queueRecords (s : State) (d : Nat) : List (Nat × Nat × BitVec 512 × List (BitVec 512)) :=
  (wholeRecords (s.die d).fq (s.queueSlot d) 1024 0).map (fun r => (d, r.1, r.2.1, r.2.2))

/-- The 1,024 slots of a die's fault queue (R324), keyed 1024 die + slot. -/
def State.queueSlots (s : State) (d : Nat) : Tbl (BitVec 512) :=
  (List.range 1024).foldl (fun t n => Tbl.set 0 t (1024 * d + n) (s.queueSlot d n)) []

/-- A recorder control word (R318). -/
def Recorder.control (r : Recorder) : Nat :=
  r.frz.toNat * 2 ^ 63 + r.miss.toNat * 2 ^ 62 + r.drop % 2 ^ 16 * 2 ^ 46 + r.wrap % 2 ^ 32 * 2 ^ 12 + r.wptr % 2 ^ 12

/-- The device-wide part of the configuration snapshot (R324, R390), with the control word of every recorder: it names the cores that are
missing (R318, R322). -/
def State.snapshot (s : State) : List Byte :=
  leBytes 8 idReg ++ s.measurement0 ++ s.measurement1 ++ (List.range 4).map (fun d => BitVec.ofNat 8 (s.die d).clk.step)
  ++ leBytes 8 s.ddr
  ++ leBytes 24 (allCores.foldl (fun n k => n + (if (s.core k).ctl.retired then 2 ^ k else 0)) 0)
  ++ allCores.flatMap (fun k => [0, 3, 7, 8].map (fun r => BitVec.ofNat 8 (Tbl.get 0 (s.core k).ctl.spares r)))
  ++ allCores.flatMap (fun k => leBytes 4 (s.core k).ctl.spinth)
  ++ allCores.flatMap (fun k => leBytes 8 (s.core k).rcd.control)

/-- The parts that belong to a tenant: its queues and the functions bound to it. -/
def State.snapshotOf (s : State) : List (Nat × List Byte) :=
  (List.range 256).map (fun q => ((s.tq q).tenant, BitVec.ofNat 8 q :: leBytes 16 (s.tq q).word))
  ++ (List.range 16).map (fun k => (vfTenant (s.binding k), BitVec.ofNat 8 k :: leBytes 8 (s.binding k).toNat))

/-- The store that an assembly makes. -/
def State.makeStore (s : State) (f : Freeze) (salt : List Byte) : Store :=
  let m := earliest (s.markers (f.time + 2000))
  let ev : Nat := match m with | some x => x.2.2.2.toNat | none => f.payload
  { st := 1, serial := s.ctrl.serial, time := match m with | some x => x.1 | none => f.time
    origin := natBits ev 56 8, odie := natBits ev 53 3, cause := natBits ev 45 8
    rings := allCores.foldl (fun t k => Tbl.set {} t k (s.core k).rcd) []
    slots := (List.range 4).flatMap s.queueSlots, recs := (List.range 4).flatMap s.queueRecords, snap := s.snapshot, snapQueues := s.snapshotOf
    salt := (salt ++ (List.range 48).map Config.saltByte).take 48 }

/-- Whether a retention slot takes a new store. -/
def Store.open_ (st : Store) : Bool := decide (st.st ≠ 1)

def State.store (s : State) (i : Nat) : Store := Tbl.get {} s.ctrl.stores i
def State.onCtrl (s : State) (f : Ctrl → Ctrl) : State := { s with ctrl := f s.ctrl }

/-- A store kept in the lower free slot, and in its mirror where there is one (R330), or dropped; interrupt 5 of the PF when one was
written. -/
def State.keepStore (s : State) (f : Freeze) (st : Store) : State :=
  let put := fun (i : Nat) =>
    let s := s.onCtrl (fun c =>
      { c with stores := Tbl.set {} c.stores i st, mirror := if s.ddr = 0 then c.mirror else Tbl.set {} c.mirror i st, assembled := true })
    { s with io := { s.io with msix := s.io.msix ++ [(0, 5)] } }
  if (s.store 0).open_ then put 0
  else if (s.store 1).open_ then put 1
  else s.onCtrl (fun c => { c with assembled := true, dropped := some (st.serial, { f with time := st.time, cause := st.cause }) })

/-- CAPSULE_ASSEMBLY (R324, R325): once every recorder is frozen or 2,000 ns have passed. A reset that was held begins; a thermal
shutdown powers the module off (19 R426), and standby power, with retention SRAM, stays (R330). -/
def execCapsuleAssembly (salt : List Byte) (s : State) : Out :=
  match s.ctrl.freezes with
  | [] => .next s
  | f :: _ =>
    if s.ctrl.assembled || (decide (s.time < f.time + 2000) && !allCores.all (fun k => (s.core k).rcd.frz)) then .next s
    else
      let held := s.ctrl.resetHeld
      let off := s.ctrl.trip || s.ctrl.freezes.any (fun f => f.cause == 5)
      let t := s.keepStore f (s.makeStore f salt)
      if off then execPowerLoss false t else if held then .next t.resetFrom2 else .next t

/-! Capsules (R326 to R329). -/

/-- Whether a store holds an event or record of a tenant (R332). -/
def Store.present (st : Store) (t : Nat) : Bool :=
  decide (t ≠ 0xFF) && (st.events.any (fun e => !e.bad && evTenant e.ev == t) || st.recs.any (fun r => natBits r.2.2.1.toNat 292 8 == t))

/-- An event entry of a tenant's capsule. -/
def tenantEvent (t : Nat) (e : RingEvent) : BitVec 128 × Bool :=
  if e.bad ∨ evTenant e.ev = t then (e.ev, false)
  else if evTenant e.ev = 0xFF then
    (if evType e.ev = 0x3F then e.ev &&& 0xFFFF_FFFF_FFFF_FFFF_FFFF_E000_0000_1FFF else e.ev, false)
  else (e.ev &&& 0xFC00_3FFF_FFFF_FFFF_0000_0000_0000_0000, true)

/-- The digest of an event and of a slot of a fault record (R328). -/
def eventDigest (salt : List Byte) (e : RingEvent) : List Byte :=
  sha384 (salt ++ [BitVec.ofNat 8 e.core] ++ leBytes 2 e.slot ++ leBytes 16 e.ev.toNat)
def recordDigest (salt : List Byte) (d slot : Nat) (w : BitVec 512) : List Byte :=
  sha384 (salt ++ [BitVec.ofNat 8 d] ++ leBytes 2 slot ++ leBytes 64 w.toNat)

/-- An event entry of the operator's capsule, with its digest. -/
def operatorEvent (salt : List Byte) (e : RingEvent) : BitVec 128 × Bool × List Byte :=
  if e.bad ∨ evTenant e.ev = 0xFF then (e.ev, false, List.replicate 48 0)
  else (e.ev &&& 0xFFFF_FFFF_FFFF_FFFF_0000_0000_0000_0000, true, eventDigest salt e)

/-- The bytes of an event entry (R327). -/
def entryBytes (e : RingEvent) (ev : BitVec 128) (red : Bool) (digest : List Byte) : List Byte :=
  leBytes 16 ev.toNat ++ leBytes 8 e.full ++ [BitVec.ofNat 8 e.core, BitVec.ofNat 8 (e.bad.toNat + 2 * red.toNat)]
  ++ leBytes 2 e.slot ++ leBytes 4 0 ++ digest

/-- Reader 0xFF is the operator. -/
def Store.eventSection (st : Store) (reader : Nat) : List Byte :=
  st.events.flatMap (fun e =>
    if reader = 0xFF then
      let (ev, red, dg) := operatorEvent st.salt e
      entryBytes e ev red dg
    else
      let (ev, red) := tenantEvent reader e
      entryBytes e ev red [])

/-- The fault records a reader sees (R328): a tenant its own, whole; the operator all, with their BODY replaced by the digest and
without continuation slots. -/
def Store.recordSection (st : Store) (reader : Nat) : List Byte :=
  st.recs.flatMap (fun r =>
    let (d, slot, w, conts) := r
    if reader = 0xFF then (recordDigest st.salt d slot w).take 32 ++ (leBytes 64 w.toNat).drop 32
    else if natBits w.toNat 292 8 = reader then (w :: conts).flatMap (fun x => leBytes 64 x.toNat)
    else [])

def Store.snapSection (st : Store) (reader : Nat) : List Byte :=
  st.snap ++ (st.snapQueues.filter (fun q => reader == 0xFF || q.1 == reader)).flatMap Prod.snd

/-- Whether a core of a store is missing (R318, R326). -/
def Store.missing (st : Store) : Bool := allCores.any (fun k => (Tbl.get ({} : Recorder) st.rings k).miss)

/-- A capsule without its signatures (R326). -/
def Store.capsuleBody (st : Store) (reader : Nat) : List Byte :=
  let es := st.eventSection reader
  let rs := st.recordSection reader
  let sn := st.snapSection reader
  let o1 := 128 + es.length
  let o2 := o1 + rs.length
  let o3 := o2 + sn.length
  let magic : List Byte := [0x4D, 0x4C, 0x44, 0x58, 0x43, 0x41, 0x50, 0x53]
  let op := decide (reader = 0xFF)
  magic ++ leBytes 2 1 ++ [BitVec.ofNat 8 (!op).toNat, BitVec.ofNat 8 reader] ++ leBytes 4 st.serial ++ leBytes 8 idReg ++ leBytes 8 st.time
  ++ [BitVec.ofNat 8 st.origin, BitVec.ofNat 8 st.odie, BitVec.ofNat 8 st.cause, BitVec.ofNat 8 (st.missing.toNat + 2 * st.mirrored.toNat)]
  ++ leBytes 4 (es.length / (if op then 80 else 32)) ++ leBytes 8 128 ++ leBytes 8 o1 ++ leBytes 8 o2 ++ leBytes 8 o3
  ++ (if op then List.replicate 48 0 else st.salt) ++ leBytes 8 0 ++ es ++ rs ++ sn

/-- The device's ECDSA signature of a message at a step: r, then s, under the identity key of the firmware that runs (R329, 19 R424). -/
def State.ecdsa (s : State) (msg : List Byte) : List Byte := (List.range 96).map (Config.ecdsaByte s.measurement0 (sha384 msg) s.seq)

/-- An LMS signature of a message by leaf `q` (R329; RFC 8554): the leaf, LMOTS_SHA256_N32_W8 (4) with its randomiser and 34 chains, then
LMS_SHA256_M32_H20 (8) with its path of 20 nodes. -/
def lmsSignature (q : Nat) (msg : List Byte) : List Byte :=
  beBytes 4 q ++ beBytes 4 4 ++ (List.range 1120).map (Config.lmsByte q msg) ++ beBytes 4 8
  ++ (List.range 640).map (fun i => Config.lmsByte q msg (1120 + i))

/-- The signature section of a capsule, over all that stands before it (R326, R329). -/
def State.signatures (s : State) (body : List Byte) : List Byte := s.ecdsa body ++ lmsSignature s.ctrl.lms body

/-- Leaves of the device's LMS tree (R424). -/
def lmsLeaves : Nat := 2 ^ 20

/-- A reader's capsule of a store: as signed before, or signed now with the next leaf; none when the tree is exhausted. -/
def State.capsule (s : State) (i reader : Nat) : Option (State × List Byte) :=
  let st := s.store i
  match st.views.find? (fun v => v.1 == reader) with
  | some v => some (s, v.2)
  | none =>
    if lmsLeaves ≤ s.ctrl.lms then none
    else
      let body := st.capsuleBody reader
      let bs := body ++ s.signatures body
      some (s.onCtrl (fun c => { c with lms := c.lms + 1, stores := Tbl.upd {} c.stores i (fun st => { st with views := st.views ++ [(reader, bs)] }) }), bs)

/-! The capsule commands (R332, R333, 19 R430). A reply: the state after, status, payload. -/

/-- Status of a slot that holds no store: assembly in progress, or no such store. -/
def State.noStore (s : State) (i : Nat) : Nat := if s.assembling && decide (i < 2) then 4 else 1

def setBytes (p : Nat → Bool) : List Byte := leBytes 32 ((List.range 255).foldl (fun n t => n + (if p t then 2 ^ t else 0)) 0)

/-- CAPLIST: a freeze that was dropped is shown for slot 1 (log 78). -/
def State.capList (s : State) (reader : Nat) : List Byte :=
  let one := fun (i : Nat) =>
    let st := s.store i
    match i, s.ctrl.dropped with
    | 1, some (n, f) => leBytes 4 2 ++ leBytes 4 n ++ leBytes 8 f.time ++ leBytes 16 f.cause
    | _, _ => leBytes 4 st.st ++ leBytes 4 st.serial ++ leBytes 8 st.time ++ leBytes 16 st.cause
  let maps := fun (i : Nat) =>
    let st := s.store i
    if st.open_ then List.replicate 64 0 else setBytes st.present ++ setBytes (fun t => st.acked.contains t)
  one 0 ++ one 1 ++ (if reader = 0xFF then maps 0 ++ maps 1 else [])

/-- CAPGET. -/
def State.capGet (s : State) (reader i off : Nat) : State × Nat × List Byte :=
  let st := s.store i
  if 2 ≤ i ∨ st.open_ then (s, s.noStore i, [])
  else if reader ≠ 0xFF ∧ !st.present reader then (s, 1, [])
  else match s.capsule i reader with
    | none => (s, 6, [])
    | some (t, bs) => if bs.length ≤ off then (s, 5, []) else (t, 0, leBytes 8 bs.length ++ (bs.drop off).take 4088)

/-- CAPACK. -/
def State.capAck (s : State) (reader i force : Nat) : State × Nat × List Byte :=
  let st := s.store i
  let free := s.onCtrl (fun c => { c with stores := Tbl.erase i c.stores, mirror := Tbl.erase i c.mirror })
  if 1 < force ∨ (force = 1 ∧ reader ≠ 0xFF) then (s, 2, [])
  else if 2 ≤ i ∨ st.open_ then (s, s.noStore i, [])
  else if reader ≠ 0xFF then
    if !st.present reader then (s, 1, [])
    else (s.onCtrl (fun c => { c with stores := Tbl.upd {} c.stores i (fun st =>
      { st with acked := if st.acked.contains reader then st.acked else st.acked ++ [reader] }) }), 0, [])
  else if force = 1 ∨ (List.range 255).all (fun t => !st.present t || st.acked.contains t) then (free, 0, [])
  else (s, 3, [])

end Sys2Proof.Machine
end

