-- ==== Sys2Proof/Machine/Cross.lean ====
section
/-! DEFINITION. The cross-lane and predicate range (07 R160 to R167). -/

namespace Sys2Proof.Machine

/-- The team's vector width for a type (R160). -/
def State.width (s : State) (t : Nat) : Nat := s.nl * tySubs t

/-- XLANE (R161). -/
def execXlane (h : Head) (o : FmtA) (s : State) : Out :=
  .next (s.issue (.xlane h o) false false (fun s => do
    let t := o.ty.toNat
    if !o.bs then s.noPoison (s.lanes h.guard) [srcB o]
    s.gather h.guard t o.d.toNat o.a.toNat (fun l k =>
      let i := sub (tyWidth t) k (s.src l (srcB o))
      if i < s.width t then some i else none)))

/-- SLIDE (R162). -/
def execSlide (h : Head) (o : FmtA) (s : State) : Out :=
  .next (s.issue (.slide h o) false false (fun s =>
    let t := o.ty.toNat
    let n := toInt true 64 (s.rs o.b.toNat).toNat
    let w := s.width t
    s.gather h.guard t o.d.toNat o.a.toNat (fun l k =>
      let j : Int := (tySubs t * l + k : Nat) + n
      if 0 ≤ j ∧ j < w then some j.toNat
      else match o.c.toNat with
        | 0 => none
        | 1 => some (if j < 0 then 0 else w - 1)
        | _ => some (j % (w : Nat)).toNat)))

/-- The pattern entry of an instruction, and whether its group holds it (R163). -/
def State.pat (s : State) (c : Nat) : Pat := Tbl.get {} s.cr.tabs.pats c
def State.holdsPat (s : State) (c : Nat) : Bool := (s.pat c).lv && (s.pat c).hold == s.tm.id.grp

/-- A PERM holds its entry from PTLD for as long as it sweeps (R164). -/
def State.sweepPat (s : State) (i : Instr) (c : Nat) : State :=
  let till := s.cyc + s.sections (instrInfo i)
  s.onTabs s.ck (fun t => { t with pats := Tbl.upd {} t.pats c (fun p => { p with swept := max p.swept till }) })

/-- PERM (R163). That only the selectors which an element of a served lane uses are tested for bit 6, and that this fault comes before
consumed poison, are the model's choices (log 107). -/
def execPerm (h : Head) (o : FmtA) (s : State) : Out :=
  .next (s.issue (.perm h o) false false (fun s => do
    let t := o.ty.toNat
    let c := o.c.toNat
    failIf (!s.holdsPat c) (faultOf 0x1D 0 0 (c + 16))
    let img := (s.pat c).img.toNat
    let selOf := fun (l k : Nat) => sub 8 ((tySubs t * l + k) % 64) img
    failIf ((s.lanes h.guard).any (fun l => (List.range (tySubs t)).any (fun k => (selOf l k).testBit 6))) (faultOf 0x1D 0 0 c)
    let s ← s.gather h.guard t o.d.toNat o.a.toNat (fun l k =>
      let x := selOf l k
      let j := (tySubs t * l + k) / 64 * 64 + x % 64
      if x.testBit 7 then none else if j < s.width t then some j else none)
    pure (s.sweepPat (.perm h o) c)))

/-- PTLD (R164): the 64 bytes of lanes 0 to 7, read at once (R28); a PERM may name the entry 8 cycles later. -/
def execPtld (h : Head) (o : FmtA) (s : State) : Out :=
  .next (s.issue (.ptld h o) true false (fun s => do
    let g := s.tm.id.grp
    let cyc := s.cyc
    s.noElemPoison 4 o.a.toNat ((List.range 8).map (fun e => (cyc, e)))
    let img := pack 64 ((List.range 8).map (s.elem cyc 4 o.a.toNat))
    pure (s.onTabs s.ck (fun t => { t with
      pats := Tbl.set {} t.pats o.c.toNat { img := BitVec.ofNat 512 img, lv := true, hold := g, fresh := cyc + 8 } }))))

/-- The reduction of a set of elements (R165): the element and the status bits. -/
def reduce (t op : Nat) (x : Bool) (es : List Nat) : Nat × Nat :=
  let w := tyWidth t
  let sg := isSigned t
  if tF.contains t then
    let vs := es.map (decodeFp t)
    if op = 0 then
      let (r, f) := sumFl vs
      let (p, g) := roundFp t x false r
      (p, f ||| g ||| sigNV vs)
    else
      let nv := sigNV vs
      let nums := es.filter (fun e => !(decodeFp t e).isNan)
      match nums with
      | [] =>
        if es.isEmpty then (infPat t + (if op = 2 then signPat t true else 0), 0) else (nanPat t, nv)
      | e :: rest => (rest.foldl (fun a b => (minMaxFp t (op == 2) a b).1) e, nv)
  else
    match op with
    | 0 => intRes x sg w (es.foldl (fun (a : Int) e => a + toInt sg w e) 0)
    | 1 => (wrapInt w (es.foldl (fun (a : Int) e => min a (toInt sg w e)) (intMax sg w)), 0)
    | 2 => (wrapInt w (es.foldl (fun (a : Int) e => max a (toInt sg w e)) (intMin sg w)), 0)
    | 3 => (es.foldl (fun a e => a &&& e) (2 ^ w - 1), 0)
    | 4 => (es.foldl (fun a e => a ||| e) 0, 0)
    | _ => (es.foldl (fun a e => a ^^^ e) 0, 0)

/-- The elements of the served lanes in ascending order, with their indexes, each read with its own section (R28). -/
def State.candidates (s : State) (g : BitVec 4) (t a : Nat) : List (Nat × Nat) :=
  (s.lanes g).flatMap (fun l => (List.range (tySubs t)).map (fun k =>
    let e := tySubs t * l + k
    (e, s.elem (s.readCyc l) t a e)))

/-- VRED (R165). -/
def execVred (h : Head) (o : FmtA) (s : State) : Out :=
  .next (s.issue (.vred h o) false false (fun s => do
    let t := o.ty.toNat
    let ls := s.lanes h.guard
    s.noPoison ls [srcA o]
    let (r, f) := reduce t o.c.toNat o.x ((s.candidates h.guard t o.a.toNat).map Prod.snd)
    let v := pack (tyWidth t) (List.replicate (tySubs t) r)
    let s := s.wv o.d.toNat (ls.map (fun l => (l, { val := BitVec.ofNat 64 v })))
    pure (if ls.isEmpty then s else s.stat f)))

/-- VSCAN (R165): c[3] is .ex. -/
def execVscan (h : Head) (o : FmtA) (s : State) : Out :=
  .next (s.issue (.vscan h o) false false (fun s => do
    let t := o.ty.toNat
    let ls := s.lanes h.guard
    s.noPoison ls [srcA o]
    let es := (s.candidates h.guard t o.a.toNat).map Prod.snd
    let ex := o.c.toNat / 8 == 1
    let rs := (List.range es.length).map (fun i => reduce t (o.c.toNat % 8) o.x (es.take (if ex then i else i + 1)))
    let n := tySubs t
    let s := s.wv o.d.toNat ((ls.zip (List.range ls.length)).map (fun p =>
      (p.1, { val := BitVec.ofNat 64 (pack (tyWidth t) (((rs.drop (n * p.2)).take n).map Prod.fst)) })))
    pure (s.stat (rs.foldl (fun a r => a ||| r.2) 0))))

/-- Whether candidate x ranks before candidate y in value (R166). -/
def ranksBefore (t : Nat) (mn : Bool) (x y : Nat) : Bool :=
  if tF.contains t then
    let a := decodeFp t x
    let b := decodeFp t y
    if a.isNan then false
    else if b.isNan then true
    else if mn then decide (cmpFl a b < 0) else decide (cmpFl a b > 0)
  else
    let a := toInt (isSigned t) (tyWidth t) x
    let b := toInt (isSigned t) (tyWidth t) y
    if mn then decide (a < b) else decide (b < a)

/-- A later candidate put in its place: after every earlier one that it does not beat. -/
def rankIns (t : Nat) (mn : Bool) (c : Nat × Nat) : List (Nat × Nat) → List (Nat × Nat)
  | [] => [c]
  | d :: ds => if ranksBefore t mn c.2 d.2 then c :: d :: ds else d :: rankIns t mn c ds

/-- The ranking of candidates (R166). -/
def rank (t : Nat) (mn : Bool) (cs : List (Nat × Nat)) : List (Nat × Nat) := cs.foldl (fun a c => rankIns t mn c a) []

/-- Values put into output positions of width `w`, the k-th into sub-element k mod S of the k div S-th served lane (R166). A lane of which
only some positions are written keeps its other bits; a poison mark there is not consumed and is lost, which is the model's choice
(log 139). -/
def State.putRanked (s : State) (d w : Nat) (ls : List Nat) (vals : List Nat) : State :=
  let n := 64 / w
  s.wv d (((ls.zip (List.range ls.length)).filter (fun p => n * p.2 < vals.length)).map (fun p =>
    let old := (s.rv d p.1).val.toNat
    let new := (vals.drop (n * p.2)).take n
    (p.1, { val := BitVec.ofNat 64 (pack w ((List.range n).map (fun k => (new.getD k (sub w k old))))) })))

/-- The body of TOPK and TOPKX; output positions at and beyond k keep their old values, and k = 0 reads nothing. -/
def topkBody (h : Head) (o : FmtA) (idx : Bool) : Body := fun s => do
  let t := o.ty.toNat
  let ls := s.lanes h.guard
  let k := (s.rs o.b.toNat).toNat
  if k = 0 then pure s
  else
    s.noPoison ls [srcA o]
    let w := if idx then 32 else tyWidth t
    let r := (rank t (o.c == 1) (s.candidates h.guard t o.a.toNat)).take k
    pure (s.putRanked o.d.toNat w ls ((r.take (ls.length * (64 / w))).map (fun e => if idx then e.1 else e.2)))

def execTopk (h : Head) (o : FmtA) (s : State) : Out := .next (s.issue (.topk h o) false false (topkBody h o false))

def execTopkx (h : Head) (o : FmtA) (s : State) : Out := .next (s.issue (.topkx h o) false false (topkBody h o true))

/-- A predicate operation in every served lane (R167). -/
def predOp (h : Head) (d : Nat) (f : Nat → Bool) (s : State) : State :=
  let ls := s.lanes h.guard
  s.wp d (maskOf ls) (maskOf (ls.filter f))

def execPand (h : Head) (o : FmtA) (s : State) : Out :=
  .next (s.issue (.pand h o) false false (fun s => .ok (predOp h o.d.toNat (fun l => s.rp o.a.toNat l && s.rp o.b.toNat l) s)))

def execPor (h : Head) (o : FmtA) (s : State) : Out :=
  .next (s.issue (.por h o) false false (fun s => .ok (predOp h o.d.toNat (fun l => s.rp o.a.toNat l || s.rp o.b.toNat l) s)))

def execPxor (h : Head) (o : FmtA) (s : State) : Out :=
  .next (s.issue (.pxor h o) false false (fun s => .ok (predOp h o.d.toNat (fun l => s.rp o.a.toNat l != s.rp o.b.toNat l) s)))

def execPnot (h : Head) (o : FmtA) (s : State) : Out :=
  .next (s.issue (.pnot h o) false false (fun s => .ok (predOp h o.d.toNat (fun l => !s.rp o.a.toNat l) s)))

end Sys2Proof.Machine
end

