-- ==== Sys2Proof/Machine/Manage.lean ====
section
/-! DEFINITION. The management of the module (19 R421 to R430, 18 R408): sensors, the mailbox, SPDM. -/

namespace Sys2Proof.Machine

/-! The mailbox (R428, R430). -/

/-- Command codes (R332, R429). -/
def cId : Nat := 0x01
def cFwload : Nat := 0x02
def cCert : Nat := 0x03
def cStep : Nat := 0x10
def cLimits : Nat := 0x11
def cState : Nat := 0x12
def cSvnset : Nat := 0x13
def cTime : Nat := 0x20
def cErrors : Nat := 0x21
def cClear : Nat := 0x22
def cCaplist : Nat := 0x40
def cCapget : Nat := 0x41
def cCapack : Nat := 0x42
def cCapfreeze : Nat := 0x43

/-- A payload put into a mailbox's 4,096 bytes, zeros behind it. -/
def putPayload (t : Tbl Byte) (fn : Nat) (bs : List Byte) : Tbl Byte := putBytes (Tbl.clear (4096 * fn) (4096 * fn + 4096) t) (4096 * fn) (bs.take 4096)

/-- A request posted: the control word with GO set; STATUS is the controller's. -/
def State.post (s : State) (fn code tag : Nat) (req : List Byte) : State :=
  s.onCtrl (fun c =>
    { c with mbox := Tbl.upd 0 c.mbox fn (fun w =>
               BitVec.ofNat 64 (2 ^ 63 + tag % 2 ^ 16 * 2 ^ 32 + min 4096 req.length * 2 ^ 16 + natBits w.toNat 8 8 * 2 ^ 8 + code))
             mreq := Machine.putBytes c.mreq (4096 * fn) (req.take 4096) })

/-- The management Ethernet as a channel of the mailbox: it stands behind the PF and the 16 VFs and speaks as the operator (R332; log 118). -/
def mgmtFn : Nat := 17

/-- Whether a channel speaks as the operator. -/
def isOperator (fn : Nat) : Bool := fn == 0 || fn == mgmtFn

/-- A reply, with its interrupt (R407). -/
def State.finish (s : State) (fn code tag status : Nat) (bs : List Byte) : State :=
  let s := s.onCtrl (fun c =>
    { c with mbox := Tbl.set 0 c.mbox fn (BitVec.ofNat 64 (2 ^ 62 + tag % 2 ^ 16 * 2 ^ 32 + bs.length * 2 ^ 16 + status * 2 ^ 8 + code))
             mrep := putPayload c.mrep fn bs })
  if fn = mgmtFn then s else { s with io := { s.io with msix := s.io.msix ++ [(fn, if fn = 0 then 4 else 0)] } }

/-- Whether a request is pending (GO). -/
def State.pending (s : State) (fn : Nat) : Bool := (Tbl.get 0 s.ctrl.mbox fn).getLsbD 63

/-- Whether a mailbox answers at all (R403, R420): the operator's from step 1 of a reset on, and in recovery. -/
def State.mailOpen (s : State) (fn : Nat) : Bool := if isOperator fn then s.ctrl.boot != 0 else s.fnOpen fn

/-- Who speaks: the operator as 0xFF, or the tenant a VF is bound to (R332). -/
def State.reader (s : State) (fn : Nat) : Nat := if isOperator fn then 0xFF else vfTenant (s.binding (fn - 1))

/-- What a command's layout asks of a request: its bytes, those that are zero, whether only the operator may send it; and whether it is
answered before step 7: 1 always, 2 once step 1 has verified the firmware (R420). -/
structure MailShape where
  code : Nat
  need : Nat := 0
  zeros : List Nat := []
  operator : Bool := false
  early : Nat := 0
deriving DecidableEq, Repr

/-- The status that turns a request away before it is served, if any: 7 before the stage (R420), 2 for a reader that may not send it
(R429) or a payload against its layout (R430). -/
def State.refuses (s : State) (m : MailShape) (fn : Nat) (req : List Byte) : Option Nat :=
  if s.ctrl.boot ≠ 7 ∧ m.early ≠ 1 ∧ !(m.early = 2 ∧ s.ctrl.boot < 7) then some 7
  else if m.operator && !isOperator fn then some 2
  else if req.length < m.need ∨ m.zeros.any (fun i => req.getD i 0 != 0) then some 2
  else none

/-- A request on function `fn`, served at once: the state after, a status and a payload. A post while GO = 1 is discarded. -/
def State.mail (s : State) (m : MailShape) (fn tag : Nat) (req0 : List Byte) (serve : State → List Byte → State × Nat × List Byte) : Out :=
  let req := req0.take 4096
  onUnit "fn" fn 18 (
    if !s.mailOpen fn || s.pending fn then s
    else
      let p := s.post fn m.code tag req
      match s.refuses m fn req with
      | some st => p.finish fn m.code tag st []
      | none =>
        let (t, st, bs) := serve p req
        t.finish fn m.code tag st bs)

/-- A request whose reply waits for the next decision of the steps (R425); `ok`: whether its values are in bounds. -/
def State.mailLater (s : State) (m : MailShape) (fn tag : Nat) (req0 : List Byte) (ok : List Byte → Bool) : Out :=
  let req := req0.take 4096
  onUnit "fn" fn 18 (
    if !s.mailOpen fn || s.pending fn then s
    else
      let p := s.post fn m.code tag req
      match s.refuses m fn req with
      | some st => p.finish fn m.code tag st []
      | none =>
        if !ok req then p.finish fn m.code tag 2 []
        else p.onCtrl (fun c => { c with waiting := c.waiting ++ [{ fn := fn, code := m.code, tag := tag, req := req }] }))

/-- A field of a request. -/
def reqAt (req : List Byte) (i n : Nat) : Nat := leNat ((req.drop i).take n)

/-! Commands (R422 to R424, R427, R430). -/

/-- MAILBOX_ID. -/
def execMailboxId (fn tag : Nat) (req : List Byte) (s : State) : Out :=
  s.mail { code := cId, early := 1 } fn tag req (fun s _ =>
    let zero : List Byte := List.replicate 48 0
    let ms := (if s.ctrl.boot < 8 then s.measurement0 else zero) ++ (if s.ctrl.boot = 6 ∨ s.ctrl.boot = 7 then s.measurement1 else zero)
    (s, 0, leBytes 8 idReg ++ (List.range 16).map Config.serialByte ++ ms))

/-- FWLOAD (R423): bytes written to the inactive slot; the completed image is checked (R421, R422). -/
def execFwload (fn tag : Nat) (req data : List Byte) (s : State) : Out :=
  s.mail { code := cFwload, need := 8, operator := true, early := 1 } fn tag (req ++ data) (fun s req =>
    let off := reqAt req 0 4
    let total := reqAt req 4 4
    let data := req.drop 8
    if total < off + data.length then (s, 2, [])
    else
      let up := putBytes s.ctrl.upload off data
      if off + data.length < total then (s.onCtrl (fun c => { c with upload := up }), 0, [])
      else
        let img := (List.range total).map (fun i => Tbl.get 0 up i)
        let good := imageOk img s.ctrl.svn
        let slot := 1 - s.ctrl.active
        (s.onCtrl (fun c =>
          { c with upload := up, images := Tbl.set [] c.images slot img, nextSlot := if good then slot else c.active }),
          if good then 0 else 2, []))

/-- The certificate chain of slot 0 (R424): it binds the identity key of the firmware that runs to the serial number. -/
def State.chain (s : State) : List Byte :=
  let id := (List.range 16).map Config.serialByte
  (List.range (Config.chainLength id s.measurement0)).map (Config.chainByte id s.measurement0)

/-- CERT (R424). -/
def execCert (fn tag : Nat) (req : List Byte) (s : State) : Out :=
  s.mail { code := cCert, need := 4, early := 2 } fn tag req (fun s req =>
    let off := reqAt req 0 4
    let n := s.chain.length
    if n ≤ off then (s, 5, []) else (s, 0, leBytes 8 (n % 2 ^ 32) ++ (s.chain.drop off).take 4088))

/-- STEP (R425): a die and a step of 0 to 3. -/
def execStep (fn tag : Nat) (req : List Byte) (s : State) : Out :=
  s.mailLater { code := cStep, need := 8, zeros := [2, 3, 4, 5, 6, 7], operator := true } fn tag req (fun r =>
    decide (reqAt r 0 1 < 4) && decide (reqAt r 1 1 < 4))

/-- The bounds of R426. -/
def limitsOk (t p : Nat) : Bool := decide (80 ≤ t ∧ t ≤ 105 ∧ 900 ≤ p ∧ p ≤ 2100)

/-- A LIMITS request (R426, R430), served by its operation byte. -/
def State.limitsMail (s : State) (fn tag : Nat) (req : List Byte) : Out :=
  s.mailLater { code := cLimits, need := 12, zeros := [1, 2, 3], operator := true } fn tag req (fun r =>
    reqAt r 0 1 == 0 || (reqAt r 0 1 == 1 && limitsOk (reqAt r 4 4) (reqAt r 8 4)))

/-- LIMITS, operation 0. -/
def execLimitsRead (fn tag : Nat) (req : List Byte) (s : State) : Out := s.limitsMail fn tag req

/-- LIMITS, operation 1. -/
def execLimitsSet (fn tag : Nat) (req : List Byte) (s : State) : Out := s.limitsMail fn tag req

/-- The shape of a STATE request. -/
def stateShape : MailShape := { code := cState, need := 8, zeros := [1, 2, 3, 4, 5, 6, 7], operator := true }

/-- The reply to STATE: the state after the request. -/
def stateReply (n : Nat) : List Byte := [BitVec.ofNat 8 n]

/-- Whether a device in QUIESCE may enter STANDBY (R427). -/
def State.quiet (s : State) : Bool :=
  s.cores.all (fun k => k.2.resident.isEmpty && k.2.copies.isEmpty && k.2.mat.drain.isNone)
  && s.dies.all (fun d => d.2.fq.waiting.isEmpty && d.2.fq.recs.all (fun r => !r.pend))
  && !s.assembling

/-- Entering STANDBY (R427): the DDR tier, retention SRAM, reference time and the controller keep their contents. -/
def State.standby (s : State) : State :=
  { cores := (s.cores.map (fun k => (k.1, k.2.afterReset))).filter (fun k => k.2 ≠ {})
    mem := { bytes := Tbl.clear 0 0x100_0000_0000 (Tbl.clear 0xF00_0000_0000 0xF01_8000_0000 s.mem.bytes)
             bad := Tbl.clear 0 0x100_0000_0000 (Tbl.clear 0xF00_0000_0000 0xF01_8000_0000 s.mem.bad) }
    io := s.io, ctrl := { s.ctrl with power := 2 }, time := s.time, ddr := s.ddr, seq := s.seq, agenda := s.agenda }

/-- A STATE request served by its target byte (R427): to ACTIVE or QUIESCE at once, to STANDBY from a quiet QUIESCE, and the warm
reset, which comes after the reply; the status. -/
def State.toState (s : State) (target : Nat) : State × Nat :=
  let p := s.ctrl.power
  let put := fun (n : Nat) => s.onCtrl (fun c => { c with power := n })
  match target with
  | 0 => if p = 2 then (s, 2) else (put 0, 0)
  | 1 => if p = 2 then (s, 2) else (put 1, 0)
  | 2 => if p = 2 then (s, 0) else if p = 1 ∧ s.quiet then (s.standby, 0) else (s, 2)
  | 3 => (s, 0)
  | _ => (s, 2)

/-- A STATE request (R427, R430): a request for a warm reset replies before the reset begins. -/
def State.stateMail (s : State) (fn tag : Nat) (req : List Byte) : Out :=
  match s.mail stateShape fn tag req (fun s r =>
      let (t, st) := s.toState (reqAt r 0 1)
      (t, st, if st = 0 then stateReply t.ctrl.power else [])) with
  | .next t => .next (if s.mailOpen fn && !s.pending fn && (s.refuses stateShape fn (req.take 4096)).isNone && reqAt req 0 1 == 3
      then t.warmReset else t)
  | o => o

/-- STATE with target 0, ACTIVE (R427): dispatch resumes from each queue's HEAD. -/
def execStateActive (fn tag : Nat) (req : List Byte) (s : State) : Out := s.stateMail fn tag req

/-- STATE with target 1, QUIESCE. -/
def execStateQuiesce (fn tag : Nat) (req : List Byte) (s : State) : Out := s.stateMail fn tag req

/-- STATE with target 2, STANDBY. -/
def execStateStandby (fn tag : Nat) (req : List Byte) (s : State) : Out := s.stateMail fn tag req

/-- STATE with target 3, a warm reset. -/
def execStateWarmReset (fn tag : Nat) (req : List Byte) (s : State) : Out := s.stateMail fn tag req

/-- SVNSET (R423): never lower. -/
def execSvnset (fn tag : Nat) (req : List Byte) (s : State) : Out :=
  s.mail { code := cSvnset, need := 4, operator := true } fn tag req (fun s r =>
    let n := reqAt r 0 4
    if n < s.ctrl.svn then (s, 2, []) else (s.onCtrl (fun c => { c with svn := n }), 0, leBytes 4 n))

/-- A signed number in `n` bytes. -/
def leInt (n : Nat) (x : Int) : List Byte := leBytes n (x % ((256 ^ n : Nat) : Int)).toNat

/-- TIME (R370, R430). -/
def execMailboxTime (fn tag : Nat) (req : List Byte) (s : State) : Out :=
  s.mail { code := cTime } fn tag req (fun s _ =>
    let p := s.ctrl.ptp
    let off := if p.everLocked then leInt 8 p.offset else leBytes 8 (2 ^ 63)
    (s, 0, leBytes 8 p.lock ++ off ++ leInt 4 (if p.lock = 0 then 0 else p.rate) ++ leBytes 4 0 ++ leBytes 8 s.time))

/-- An entry of the ERRORS list. -/
def ErrEntry.bytes (e : ErrEntry) : List Byte :=
  [BitVec.ofNat 8 e.kind, BitVec.ofNat 8 e.die] ++ leBytes 2 e.unit ++ leBytes 4 e.detail ++ leBytes 8 e.time

/-- ERRORS (R390, R413, R430). -/
def execErrors (fn tag : Nat) (req : List Byte) (s : State) : Out :=
  s.mail { code := cErrors, need := 4, operator := true } fn tag req (fun s r =>
    let es := (s.ctrl.errors.drop (reqAt r 0 4)).take 255
    (s, 0, leBytes 8 s.ctrl.errors.length ++ es.flatMap ErrEntry.bytes))

/-- CLEAR (R390, R430). -/
def execClear (fn tag : Nat) (req : List Byte) (s : State) : Out :=
  s.mail { code := cClear, need := 8, zeros := [1, 2, 3, 4, 5, 6, 7], operator := true } fn tag req (fun s r =>
    let m := reqAt r 0 1
    if 4 ≤ m then (s, 2, [])
    else
      let a := m.testBit 0
      let b := m.testBit 1
      let clr := fun (c : Core) => { c with ctl := { c.ctl with
        retired := c.ctl.retired && !a
        spares := if b then [] else c.ctl.spares } }
      let s : State := { s with cores := (s.cores.map (fun k => (k.1, clr k.2))).filter (fun k => k.2 ≠ {}) }
      (s.onCtrl (fun c => { c with errors := c.errors.filter (fun e => !((a && e.kind == 0) || (b && e.kind == 1))) }), 0, []))

/-- CAPLIST (14 R332). -/
def execCaplist (fn tag : Nat) (req : List Byte) (s : State) : Out :=
  s.mail { code := cCaplist } fn tag req (fun s _ => (s, 0, s.capList (s.reader fn)))

/-- CAPGET. -/
def execCapget (fn tag : Nat) (req : List Byte) (s : State) : Out :=
  s.mail { code := cCapget, need := 8, zeros := [1, 2, 3] } fn tag req (fun s r => s.capGet (s.reader fn) (reqAt r 0 1) (reqAt r 4 4))

/-- CAPACK (14 R333). -/
def execCapack (fn tag : Nat) (req : List Byte) (s : State) : Out :=
  s.mail { code := cCapack, need := 8, zeros := [2, 3, 4, 5, 6, 7] } fn tag req (fun s r => s.capAck (s.reader fn) (reqAt r 0 1) (reqAt r 1 1))

/-- CAPFREEZE: a freeze with cause 0x06 (14 R321); nothing new in a package that is frozen. -/
def execCapfreeze (fn tag : Nat) (req : List Byte) (s : State) : Out :=
  s.mail { code := cCapfreeze, operator := true } fn tag req (fun s _ =>
    if s.assembling then (s, 4, []) else (s.fatal 4 0xFF 6 0xFF, 0, []))

/-! Sensors and steps (R425, R426). -/

/-- One of the causes that bind a step, where several do. -/
def pickCause (seq : Nat) : List Nat → Nat
  | [] => 0
  | [a] => a
  | a :: as => if Config.pick seq (31000000 + as.length) then a else pickCause seq as

/-- The thermal step after `n` periods of 100 µs at `t` tenths of a degree: each 1 ms too hot lowers it by one, each 10 ms cool raises it
by one (R426). -/
def Clock.heat (c : Clock) (t throttle n : Nat) : Clock :=
  let c := { c with temp := t }
  if 10 * throttle < t then
    { c with hotFor := (c.hotFor + n) % 10, coolFor := 0, thermal := c.thermal - (c.hotFor + n) / 10 }
  else if t + 50 ≤ 10 * throttle then
    { c with coolFor := (c.coolFor + n) % 100, hotFor := 0, thermal := min 3 (c.thermal + (c.coolFor + n) / 100) }
  else { c with hotFor := 0, coolFor := 0 }

/-- The step a die should run at, and the change that falls due (R425). -/
def Clock.decide_ (c : Clock) (seq : Nat) : Clock :=
  let st := min c.req (min c.thermal c.power)
  let now := if c.relock.isSome then c.goal.1 else c.step
  let causes := (if c.req = st then [0] else []) ++ (if c.thermal = st then [1] else []) ++ (if c.power = st then [2] else [])
  { c with next := if st = now then none else some (st, pickCause seq causes) }

/-- The hottest die; the lower of equals. -/
def hottest (temps : List Nat) : Nat := (List.range 4).foldl (fun b d => if temps.getD b 0 < temps.getD d 0 then d else b) 0

/-- A waiting STEP or LIMITS request taken into the decision. -/
def State.takeMail (s : State) (r : MailReq) : State :=
  if r.code = cStep then s.onClk (reqAt r.req 0 1) (fun c => { c with req := reqAt r.req 1 1 })
  else if reqAt r.req 0 1 = 1 then s.onCtrl (fun c => { c with throttle := reqAt r.req 4 4, limit := reqAt r.req 8 4 })
  else s

/-- Its reply. -/
def State.replyMail (s : State) (r : MailReq) : State :=
  s.finish r.fn r.code r.tag 0
    (if r.code = cStep then [] else leBytes 4 s.ctrl.throttle ++ leBytes 4 110 ++ leBytes 4 s.ctrl.limit)

/-- The steps decided from readings that hold for `n` periods (R425, R426). -/
def State.decideSteps (s : State) (temps : List Nat) (power n : Nat) : State :=
  let ws := s.ctrl.waiting
  let s := (ws.foldl State.takeMail s).onCtrl (fun c => { c with waiting := [], powers := (List.replicate (min n 10) power ++ c.powers).take 10 })
  let on := s.ctrl.power != 2
  let dies := if on then List.range 4 else []
  let s := dies.foldl (fun s d => s.onClk d (fun c => c.heat (temps.getD d 0) s.ctrl.throttle n)) s
  let hot := decide (s.ctrl.limit * s.ctrl.powers.length < s.ctrl.powers.sum)
  let fall := if hot then (s.ctrl.powerFor + n) / 10 else 0
  let s := s.onCtrl (fun c => { c with powerFor := if hot then (c.powerFor + n) % 10 else 0 })
  let s := if on then s.onClk (hottest temps) (fun c => { c with power := c.power - fall }) else s
  let rise := fun (s : State) (d : Nat) =>
    if !hot && Config.pick s.seq (32000000 + d) then s.onClk d (fun c => { c with power := min 3 (c.power + 1) }) else s
  let s := dies.foldl rise s
  let s := dies.foldl (fun s d => s.onClk d (fun c => c.decide_ (s.seq + d))) s
  ws.foldl State.replyMail s

/-- SENSOR_PERIOD (R425, R426): temperatures in tenths of a degree by die and the module's power in W, once per 100 µs; the 1 ms average is
that of the last ten readings. Above the shutdown temperature the module freezes and powers off, at once where the package has frozen and its
store is kept. -/
def execSensorPeriod (temps : List Nat) (power : Nat) (s : State) : Out :=
  let n := (s.time - s.ctrl.sensed) / 100000
  if (s.ctrl.boot ≠ 6 ∧ s.ctrl.boot ≠ 7) ∨ n = 0 then .next s
  else
    let s := s.onCtrl (fun c => { c with sensed := c.sensed + 100000 * n })
    let s := s.decideSteps temps power n
    if temps.any (fun t => decide (1100 < t)) then
      let s := (s.fatal 4 0xFF 5 0xFF).onCtrl (fun c => { c with trip := true })
      if s.ctrl.assembled then execPowerLoss false s else .next s
    else .next s

/-! SPDM 1.2 (R408): an answer holds its code, what the spec fixes of it, and bytes that the spec leaves to SPDM 1.2. The places of a request's
slot, offset and length and the codes of the algorithms are those of SPDM 1.2 (log 138). -/

/-- An answer to a request that comes as configuration requests of the PF: retried until its configuration space is ready (19 R420); the
firmware that signs runs from step 2 on. -/
def State.spdm (s : State) (code : Nat) (fixed tail : List Byte) : Out :=
  .next (
    if s.ctrl.boot = 9 ∧ !s.ctrl.cfg then s.answer 4 []
    else if s.ctrl.boot = 0 ∨ 8 ≤ s.ctrl.boot then s
    else { s with io := { s.io with spdm := s.io.spdm ++
      [(code, fixed ++ (List.range (Config.spdmLength s.seq)).map (Config.spdmByte s.seq) ++ tail)] } })

/-- An answer about the chain of a slot: only slot 0 holds one; else ERROR, invalid request. -/
def State.spdmSlot (s : State) (req : List Byte) (code : Nat) (fixed tail : List Byte) : Out :=
  if reqAt req 2 1 % 16 = 0 then s.spdm code fixed tail else s.spdm 0x7F [1, 0] []

/-- GET_VERSION: version 1.2. -/
def execSpdmGetVersion (_req : List Byte) (s : State) : Out := s.spdm 0x04 [0x12] []
def execSpdmGetCapabilities (_req : List Byte) (s : State) : Out := s.spdm 0x61 [] []
/-- NEGOTIATE_ALGORITHMS: ECDSA P-384 and SHA-384. -/
def execSpdmNegotiateAlgorithms (_req : List Byte) (s : State) : Out := s.spdm 0x63 (leBytes 4 0x80 ++ leBytes 4 2) []
/-- GET_DIGESTS: SHA-384 of the chain. -/
def execSpdmGetDigests (_req : List Byte) (s : State) : Out := s.spdm 0x01 (sha384 s.chain) []
/-- GET_CERTIFICATE: a portion of the chain, its length and what remains. -/
def execSpdmGetCertificate (req : List Byte) (s : State) : Out :=
  let part := (s.chain.drop (reqAt req 4 2)).take (reqAt req 6 2)
  s.spdmSlot req 0x02 (leBytes 2 part.length ++ leBytes 2 (s.chain.length - reqAt req 4 2 - part.length) ++ part) []
/-- CHALLENGE: signed by ECDSA P-384. -/
def execSpdmChallenge (req : List Byte) (s : State) : Out := s.spdmSlot req 0x03 (sha384 s.chain) (s.ecdsa req)
/-- GET_MEASUREMENTS: the firmware digest and the configuration digest (19 R422), signed where the request asks for it. -/
def execSpdmGetMeasurements (req : List Byte) (s : State) : Out :=
  s.spdm 0x60 (s.measurement0 ++ s.measurement1) (if (reqAt req 2 1).testBit 0 then s.ecdsa req else [])

/-! The mailbox of the PF as the host writes it (R398, R428). -/

/-- A request served by its CODE (R332, R429): any other replies with status 2. -/
def State.serveCode (s : State) (fn code tag : Nat) (req : List Byte) : Out :=
  if code = cId then execMailboxId fn tag req s
  else if code = cFwload then execFwload fn tag req [] s
  else if code = cCert then execCert fn tag req s
  else if code = cStep then execStep fn tag req s
  else if code = cLimits then s.limitsMail fn tag req
  else if code = cState then s.stateMail fn tag req
  else if code = cSvnset then execSvnset fn tag req s
  else if code = cTime then execMailboxTime fn tag req s
  else if code = cErrors then execErrors fn tag req s
  else if code = cClear then execClear fn tag req s
  else if code = cCaplist then execCaplist fn tag req s
  else if code = cCapget then execCapget fn tag req s
  else if code = cCapack then execCapack fn tag req s
  else if code = cCapfreeze then execCapfreeze fn tag req s
  else s.mail { code } fn tag req (fun s _ => (s, 2, []))

/-- A host write in the mailbox of a function at an offset (R428): nothing while GO = 1; GO posts the request in the payload. -/
def State.mailWrite (s : State) (fn off : Nat) (data : List Byte) : Out :=
  let x := leNat data
  if s.pending fn then .next s
  else if off = 0 ∧ data.length = 8 then
    let len := natBits x 16 16
    let code := natBits x 0 8
    let tag := natBits x 32 16
    if x.testBit 63 then
      s.serveCode fn code tag ((List.range (min 4096 len)).map (fun i => Tbl.get 0 s.ctrl.mreq (4096 * fn + i)))
    else .next (s.onCtrl (fun c => { c with mbox := Tbl.upd 0 c.mbox fn (fun w =>
      BitVec.ofNat 64 (natBits w.toNat 62 1 * 2 ^ 62 + tag * 2 ^ 32 + len * 2 ^ 16 + natBits w.toNat 8 8 * 2 ^ 8 + code)) }))
  else if 0x100 ≤ off ∧ off + data.length ≤ 0x1100 then
    .next (s.onCtrl (fun c => { c with mreq := Machine.putBytes c.mreq (4096 * fn + (off - 0x100)) data }))
  else .next s

/-- HOST_REGISTER_WRITE (R398, R399, R401): one write of a whole aligned word of PF BAR 0; the mailbox of the PF from step 1 of a reset on,
the rest after step 7 (19 R420); what no row names is discarded, as is what the C-dies would take in STANDBY, where they are off
(19 R427). -/
def execHostRegisterWrite (off : Nat) (data : List Byte) (s : State) : Out :=
  let x := leNat data
  if 0x70_0000 ≤ off ∧ off < 0x80_0000 then
    (if s.mailOpen 0 then s.mailWrite 0 (off - 0x70_0000) data else .next s)
  else if s.ctrl.boot ≠ 7 then .next s
  else if off < 0x40_0000 ∧ s.ctrl.power = 2 then .next s
  else if off < 0x40_0000 then queueBlockWrite (off / 0x10_0000) (off % 0x10_0000) data.length x s
  else if off < 0x50_0000 then ioBlockWrite (off - 0x40_0000) data.length x s
  else .next s

end Sys2Proof.Machine
end

