-- ==== Sys2Proof/Machine/Scalar.lean ====
section
/-! DEFINITION. The scalar range (07 R139 to R142). -/

namespace Sys2Proof.Machine

def execSadd (h : Head) (o : FmtA) (s : State) : Out :=
  .next (s.issue (.sadd h o) true false (scalar2 o (fun a b => intBin o.ty.toNat o.x (· + ·) [a, b])))

def execSsub (h : Head) (o : FmtA) (s : State) : Out :=
  .next (s.issue (.ssub h o) true false (scalar2 o (fun a b => intBin o.ty.toNat o.x (· - ·) [a, b])))

def execSaddi (h : Head) (o : FmtI) (s : State) : Out :=
  .next (s.issue (.saddi h o) true false (fun s => .ok (s.ws o.d.toNat (s.rs o.a.toNat + o.imm.signExtend 64))))

def execSmul (h : Head) (o : FmtA) (s : State) : Out :=
  .next (s.issue (.smul h o) true false (scalar2 o (fun a b => intBin o.ty.toNat o.x (· * ·) [a, b])))

/-- Bits 127:64 of the product (R139). -/
def execSmulh (h : Head) (o : FmtA) (s : State) : Out :=
  .next (s.issue (.smulh h o) true false (scalar2 o (fun a b => intBin o.ty.toNat false (fun x y => (x * y) / 2 ^ 64) [a, b])))

/-- SDIV and SREM (R140): the quotient truncates towards zero. -/
def execSdiv (h : Head) (o : FmtA) (s : State) : Out :=
  .next (s.issue (.sdiv h o) true false (scalar2 o (fun a b =>
    if b = 0 then (0, 0) else intBin o.ty.toNat false Int.tdiv [a, b])))

def execSrem (h : Head) (o : FmtA) (s : State) : Out :=
  .next (s.issue (.srem h o) true false (scalar2 o (fun a b =>
    if b = 0 then (a, 0) else intBin o.ty.toNat false Int.tmod [a, b])))

def execSand (h : Head) (o : FmtA) (s : State) : Out :=
  .next (s.issue (.sand h o) true false (scalar2 o (fun a b => (a &&& b, 0))))

def execSor (h : Head) (o : FmtA) (s : State) : Out :=
  .next (s.issue (.sor h o) true false (scalar2 o (fun a b => (a ||| b, 0))))

def execSxor (h : Head) (o : FmtA) (s : State) : Out :=
  .next (s.issue (.sxor h o) true false (scalar2 o (fun a b => (a ^^^ b, 0))))

def execSandi (h : Head) (o : FmtI) (s : State) : Out :=
  .next (s.issue (.sandi h o) true false (fun s => .ok (s.ws o.d.toNat (s.rs o.a.toNat &&& o.imm.signExtend 64))))

def execSori (h : Head) (o : FmtI) (s : State) : Out :=
  .next (s.issue (.sori h o) true false (fun s => .ok (s.ws o.d.toNat (s.rs o.a.toNat ||| o.imm.signExtend 64))))

/-- Shifts by a natural amount (R139). -/
def execSshl (h : Head) (o : FmtA) (s : State) : Out :=
  .next (s.issue (.sshl h o) true false (scalar2 o (fun a b => (if 64 ≤ b then 0 else a * 2 ^ b, 0))))

def execSshr (h : Head) (o : FmtA) (s : State) : Out :=
  .next (s.issue (.sshr h o) true false (scalar2 o (fun a b => (if 64 ≤ b then 0 else a / 2 ^ b, 0))))

def execSsar (h : Head) (o : FmtA) (s : State) : Out :=
  .next (s.issue (.ssar h o) true false (scalar2 o (fun a b => (wrapInt 64 (toInt true 64 a / (2 ^ min b 64 : Nat)), 0))))

def execSmin (h : Head) (o : FmtA) (s : State) : Out :=
  .next (s.issue (.smin h o) true false (scalar2 o (fun a b => intBin o.ty.toNat false min [a, b])))

def execSmax (h : Head) (o : FmtA) (s : State) : Out :=
  .next (s.issue (.smax h o) true false (scalar2 o (fun a b => intBin o.ty.toNat false max [a, b])))

/-- SCMP (R141): into a scalar, or with .p into a predicate of each served lane. -/
def execScmp (h : Head) (o : FmtA) (s : State) : Out :=
  .next (s.issue (.scmp h o) true false (fun s =>
    let sg := isSigned o.ty.toNat
    let r := condInt (o.c.toNat % 8) (toInt sg 64 (s.rs o.a.toNat).toNat) (toInt sg 64 (s.rs o.b.toNat).toNat)
    if o.c.toNat / 8 % 2 = 1 then
      let m := maskOf (s.lanesNow h.guard)
      .ok (s.wp o.d.toNat m (if r then m else 0))
    else .ok (s.wsn o.d.toNat r.toNat)))

def execSsel (h : Head) (o : FmtA) (s : State) : Out :=
  .next (s.issue (.ssel h o) true false (fun s =>
    .ok (s.ws o.d.toNat (if s.rs o.c.toNat ≠ 0 then s.rs o.a.toNat else s.rs o.b.toNat))))

def execSmov (h : Head) (o : FmtA) (s : State) : Out :=
  .next (s.issue (.smov h o) true false (fun s => .ok (s.ws o.d.toNat (s.rs o.a.toNat))))

def execSli (h : Head) (o : FmtL) (s : State) : Out :=
  .next (s.issue (.sli h o) true false (fun s => .ok (s.ws o.d.toNat (o.imm.signExtend 64))))

def execSlih (h : Head) (o : FmtL) (s : State) : Out :=
  .next (s.issue (.slih h o) true false (fun s =>
    .ok (s.ws o.d.toNat (s.rs o.d.toNat <<< 24 ||| BitVec.ofNat 64 (o.imm.toNat % 2 ^ 24)))))

def execSclz (h : Head) (o : FmtA) (s : State) : Out :=
  .next (s.issue (.sclz h o) true false (fun s => .ok (s.wsn o.d.toNat (clz 64 (s.rs o.a.toNat).toNat))))

def execSpop (h : Head) (o : FmtA) (s : State) : Out :=
  .next (s.issue (.spop h o) true false (fun s => .ok (s.wsn o.d.toNat (popcount 64 (s.rs o.a.toNat).toNat))))

/-- SBFX: b holds the position and c the width less one (R139). -/
def execSbfx (h : Head) (o : FmtA) (s : State) : Out :=
  .next (s.issue (.sbfx h o) true false (fun s =>
    let w := o.c.toNat + 1
    .ok (s.wsn o.d.toNat (wrapInt 64 (toInt (isSigned o.ty.toNat) w ((s.rs o.a.toNat).toNat / 2 ^ o.b.toNat % 2 ^ w))))))

def execSbfi (h : Head) (o : FmtA) (s : State) : Out :=
  .next (s.issue (.sbfi h o) true false (fun s =>
    let m : Word := BitVec.ofNat 64 ((2 ^ (o.c.toNat + 1) - 1) * 2 ^ o.b.toNat)
    .ok (s.ws o.d.toNat ((s.rs o.d.toNat &&& ~~~m) ||| ((s.rs o.a.toNat <<< o.b.toNat) &&& m)))))

def execSlea (h : Head) (o : FmtA) (s : State) : Out :=
  .next (s.issue (.slea h o) true false (fun s => .ok (s.ws o.d.toNat (s.rs o.a.toNat + (s.rs o.b.toNat <<< o.c.toNat)))))

/-- SV2S (R142). That .q4x, which R63 calls a signed 4-bit integer, is zero-extended like every type outside the signed set is the
model's choice (log 108). -/
def execSv2s (h : Head) (o : FmtA) (s : State) : Out :=
  .next (s.issue (.sv2s h o) true false (fun s => do
    let t := o.ty.toNat
    let e := (s.rs o.b.toNat).toNat
    if s.nl * tySubs t ≤ e then pure (s.ws o.d.toNat 0)
    else
      s.noElemPoison t o.a.toNat [(s.cyc, e)]
      pure (s.wsn o.d.toNat (wrapInt 64 (toInt (isSigned t) (tyWidth t) (s.elem s.cyc t o.a.toNat e))))))

end Sys2Proof.Machine
end

