-- ==== Sys2Proof/Machine/VecInt.lean ====
section
/-! DEFINITION. The vector integer range (07 R143 to R151). -/

namespace Sys2Proof.Machine

/-- A two-source instruction of the range per sub-element of its type. -/
def vec2 (h : Head) (o : FmtA) (f : List Nat → Nat × Nat) : Body := fun s =>
  s.subWise h.guard o.d.toNat (tyWidth o.ty.toNat) [srcA o, srcB o] f

/-- A one-source instruction. -/
def vec1 (h : Head) (o : FmtA) (f : Nat → Nat × Nat) : Body := fun s =>
  s.subWise h.guard o.d.toNat (tyWidth o.ty.toNat) [srcA o] (fun l => f (x0 l))

def execVadd (h : Head) (o : FmtA) (s : State) : Out :=
  .next (s.issue (.vadd h o) false false (vec2 h o (intBin o.ty.toNat o.x (· + ·))))

def execVsub (h : Head) (o : FmtA) (s : State) : Out :=
  .next (s.issue (.vsub h o) false false (vec2 h o (intBin o.ty.toNat o.x (· - ·))))

/-- VADDI (R145): type in imm19[18:14], the 14-bit immediate taken modulo 2^w. -/
def execVaddi (h : Head) (o : FmtI) (s : State) : Out :=
  .next (s.issue (.vaddi h o) false false (fun s =>
    let w := tyWidth (o.imm.toNat / 2 ^ 14)
    let imm := toInt true 14 (o.imm.toNat % 2 ^ 14)
    s.subWise h.guard o.d.toNat w [.v o.a.toNat] (fun l => (wrapInt w (x0 l + imm), 0))))

def execVmul (h : Head) (o : FmtA) (s : State) : Out :=
  .next (s.issue (.vmul h o) false false (vec2 h o (intBin o.ty.toNat o.x (· * ·))))

def execVmulh (h : Head) (o : FmtA) (s : State) : Out :=
  .next (s.issue (.vmulh h o) false false
    (vec2 h o (intBin o.ty.toNat false (fun a b => a * b / (2 ^ tyWidth o.ty.toNat : Nat)))))

def execVmad (h : Head) (o : FmtA) (s : State) : Out :=
  .next (s.issue (.vmad h o) false false (fun s =>
    let t := o.ty.toNat
    let w := tyWidth t
    let sg := isSigned t
    s.subWise h.guard o.d.toNat w [srcA o, srcB o, srcC o]
      (fun l => intRes o.x sg w (toInt sg w (x0 l) * toInt sg w (x1 l) + toInt sg w (x2 l)))))

/-- The dot products (R146): n products of width w, an addend and a result of INT32. -/
def dotLane (sg : Bool) (w n : Nat) (vs : List Nat) : Nat × Nat :=
  let rs := [0, 1].map (fun j =>
    let t : Int := (List.range n).foldl (fun (a : Int) m =>
      a + toInt sg w (sub w (n * j + m) (x0 vs)) * toInt sg w (sub w (n * j + m) (x1 vs))) (toInt true 32 (sub 32 j (x2 vs)))
    intRes true true 32 t)
  (pack 32 (rs.map Prod.fst), rs.foldl (fun a r => a ||| r.2) 0)

def execVdot2 (h : Head) (o : FmtA) (s : State) : Out :=
  .next (s.issue (.vdot2 h o) false false (fun s =>
    s.laneWise h.guard o.d.toNat [srcA o, srcB o, srcC o] (fun _ => dotLane (isSigned o.ty.toNat) 16 2)))

def execVdot4 (h : Head) (o : FmtA) (s : State) : Out :=
  .next (s.issue (.vdot4 h o) false false (fun s =>
    s.laneWise h.guard o.d.toNat [srcA o, srcB o, srcC o] (fun _ => dotLane (isSigned o.ty.toNat) 8 4)))

def execVabs (h : Head) (o : FmtA) (s : State) : Out :=
  .next (s.issue (.vabs h o) false false (vec1 h o (fun a =>
    let w := tyWidth o.ty.toNat
    intRes o.x true w (toInt true w a).natAbs)))

def execVneg (h : Head) (o : FmtA) (s : State) : Out :=
  .next (s.issue (.vneg h o) false false (vec1 h o (fun a =>
    let w := tyWidth o.ty.toNat
    intRes o.x true w (-toInt true w a))))

def execVmin (h : Head) (o : FmtA) (s : State) : Out :=
  .next (s.issue (.vmin h o) false false (vec2 h o (intBin o.ty.toNat false min)))

def execVmax (h : Head) (o : FmtA) (s : State) : Out :=
  .next (s.issue (.vmax h o) false false (vec2 h o (intBin o.ty.toNat false max)))

def execVand (h : Head) (o : FmtA) (s : State) : Out :=
  .next (s.issue (.vand h o) false false (vec2 h o (fun l => (x0 l &&& x1 l, 0))))

def execVor (h : Head) (o : FmtA) (s : State) : Out :=
  .next (s.issue (.vor h o) false false (vec2 h o (fun l => (x0 l ||| x1 l, 0))))

def execVxor (h : Head) (o : FmtA) (s : State) : Out :=
  .next (s.issue (.vxor h o) false false (vec2 h o (fun l => (x0 l ^^^ x1 l, 0))))

def execVnot (h : Head) (o : FmtA) (s : State) : Out :=
  .next (s.issue (.vnot h o) false false (vec1 h o (fun a => (2 ^ tyWidth o.ty.toNat - 1 - a, 0))))

/-- VSHL (R147). -/
def execVshl (h : Head) (o : FmtA) (s : State) : Out :=
  .next (s.issue (.vshl h o) false false (vec2 h o (fun l =>
    let t := o.ty.toNat
    let w := tyWidth t
    let sg := isSigned t
    if x1 l < w then intRes o.x sg w (toInt sg w (x0 l) * (2 ^ x1 l : Nat))
    else if o.x then intRes true sg w (toInt sg w (x0 l) * (2 ^ w : Nat))
    else (0, 0))))

def execVshr (h : Head) (o : FmtA) (s : State) : Out :=
  .next (s.issue (.vshr h o) false false (vec2 h o (fun l => (x0 l / 2 ^ min (x1 l) 64, 0))))

def execVsar (h : Head) (o : FmtA) (s : State) : Out :=
  .next (s.issue (.vsar h o) false false (vec2 h o (fun l =>
    let w := tyWidth o.ty.toNat
    (wrapInt w (toInt true w (x0 l) / (2 ^ min (x1 l) 64 : Nat)), 0))))

/-- VRSHR: floor(a / 2^s + 1/2) (R147). -/
def execVrshr (h : Head) (o : FmtA) (s : State) : Out :=
  .next (s.issue (.vrshr h o) false false (vec2 h o (fun l =>
    let w := tyWidth o.ty.toNat
    let sh := min (x1 l) 66
    (if sh < w then wrapInt w ((2 * toInt (isSigned o.ty.toNat) w (x0 l) + (2 ^ sh : Nat)) / (2 ^ (sh + 1) : Nat)) else 0, 0))))

/-- VSAT (R148): clamps to n bits, keeping width w. -/
def execVsat (h : Head) (o : FmtA) (s : State) : Out :=
  .next (s.issue (.vsat h o) false false (vec1 h o (fun a =>
    let w := tyWidth o.ty.toNat
    let sg := isSigned o.ty.toNat
    let (c, cl) := clampInt sg o.c.toNat (toInt sg w a)
    (wrapInt w c, if cl then stSAT else 0))))

def execVclz (h : Head) (o : FmtA) (s : State) : Out :=
  .next (s.issue (.vclz h o) false false (vec1 h o (fun a => (clz (tyWidth o.ty.toNat) a, 0))))

def execVpop (h : Head) (o : FmtA) (s : State) : Out :=
  .next (s.issue (.vpop h o) false false (vec1 h o (fun a => (popcount (tyWidth o.ty.toNat) a, 0))))

/-- VCMP (R149). -/
def execVcmp (h : Head) (o : FmtA) (s : State) : Out :=
  .next (s.issue (.vcmp h o) false false (fun s =>
    let t := o.ty.toNat
    let w := tyWidth t
    let k := o.c.toNat / 8
    s.predWise h.guard o.d.toNat [srcA o, srcB o] (fun l =>
      (condInt (o.c.toNat % 8) (toInt (isSigned t) w (sub w k (x0 l))) (toInt (isSigned t) w (sub w k (x1 l))), 0))))

/-- VSEL (R144): whole registers by predicate c. Both sources are read. -/
def execVsel (h : Head) (o : FmtA) (s : State) : Out :=
  .next (s.issue (.vsel h o) false false (fun s =>
    s.laneWise h.guard o.d.toNat [srcA o, .v o.b.toNat]
      (fun l vs => (if s.rp o.c.toNat l then x0 vs else x1 vs, 0))))

def execVmov (h : Head) (o : FmtA) (s : State) : Out :=
  .next (s.issue (.vmov h o) false false (fun s => s.laneWise h.guard o.d.toNat [srcA o] (fun _ vs => (x0 vs, 0))))

def execVbcst (h : Head) (o : FmtA) (s : State) : Out :=
  .next (s.issue (.vbcst h o) false false (fun s =>
    let w := tyWidth o.ty.toNat
    s.laneWise h.guard o.d.toNat [.s o.b.toNat] (fun _ vs => (pack w (List.replicate (64 / w) (x0 vs)), 0))))

/-- VLI (R150): the width code in imm25[24:22]. -/
def execVli (h : Head) (o : FmtL) (s : State) : Out :=
  .next (s.issue (.vli h o) false false (fun s =>
    let w := 64 / 2 ^ (o.imm.toNat / 2 ^ 22)
    let v := wrapInt w (toInt true 22 (o.imm.toNat % 2 ^ 22))
    s.laneWise h.guard o.d.toNat [] (fun _ _ => (pack w (List.replicate (64 / w) v), 0))))

/-- VPACK (R151). -/
def execVpack (h : Head) (o : FmtA) (s : State) : Out :=
  .next (s.issue (.vpack h o) false false (fun s =>
    let t := o.ty.toNat
    let w := tyWidth t
    let sg := isSigned t
    s.laneWise h.guard o.d.toNat [srcA o, srcB o] (fun _ vs =>
      let half := fun x => (List.range (32 / w)).map (fun k => intRes o.x sg w (toInt sg (2 * w) (sub (2 * w) k x)))
      let rs := half (x0 vs) ++ half (x1 vs)
      (pack w (rs.map Prod.fst), rs.foldl (fun a r => a ||| r.2) 0))))

/-- VUNPK (R151). -/
def execVunpk (h : Head) (o : FmtA) (s : State) : Out :=
  .next (s.issue (.vunpk h o) false false (fun s =>
    let t := o.ty.toNat
    let w := tyWidth t
    s.laneWise h.guard o.d.toNat [srcA o] (fun _ vs =>
      (pack (2 * w) ((List.range (32 / w)).map (fun k =>
        wrapInt (2 * w) (toInt (isSigned t) w (sub w (o.c.toNat * (32 / w) + k) (x0 vs))))), 0))))

def execViota (h : Head) (o : FmtA) (s : State) : Out :=
  .next (s.issue (.viota h o) false false (fun s =>
    let w := tyWidth o.ty.toNat
    s.laneWise h.guard o.d.toNat [] (fun l _ => (pack w ((List.range (64 / w)).map (fun k => 64 / w * l + k)), 0))))

end Sys2Proof.Machine
end

