-- ==== Sys2Proof/Machine/Dispatch.lean ====
section
/-! DEFINITION. What each constructor of Instr does: one call of its meaning. -/

namespace Sys2Proof.Machine

/-- An instruction issued by the agent that issues now, or an event of the device. -/
def exec (i : Instr) (s : State) : Host.Outcome State Fault Refusal :=
  match i with
  | .nop h o => Sys2Proof.Machine.execNop h o s
  | .bra h o => Sys2Proof.Machine.execBra h o s
  | .brs h o => Sys2Proof.Machine.execBrs h o s
  | .brc h o => Sys2Proof.Machine.execBrc h o s
  | .jmpi h o => Sys2Proof.Machine.execJmpi h o s
  | .jmpiU h o => Sys2Proof.Machine.execJmpiU h o s
  | .land h o => Sys2Proof.Machine.execLand h o s
  | .call h o => Sys2Proof.Machine.execCall h o s
  | .calli h o => Sys2Proof.Machine.execCalli h o s
  | .ret h o => Sys2Proof.Machine.execRet h o s
  | .loop h o => Sys2Proof.Machine.execLoop h o s
  | .loopx h o => Sys2Proof.Machine.execLoopx h o s
  | .yield h o => Sys2Proof.Machine.execYield h o s
  | .exit h o => Sys2Proof.Machine.execExit h o s
  | .trap h o => Sys2Proof.Machine.execTrap h o s
  | .eret h o => Sys2Proof.Machine.execEret h o s
  | .halt h o => Sys2Proof.Machine.execHalt h o s
  | .brk h o => Sys2Proof.Machine.execBrk h o s
  | .sigck h o => Sys2Proof.Machine.execSigck h o s
  | .rgne h o => Sys2Proof.Machine.execRgne h o s
  | .rgnl h o => Sys2Proof.Machine.execRgnl h o s
  | .mark h o => Sys2Proof.Machine.execMark h o s
  | .waitf h o => Sys2Proof.Machine.execWaitf h o s
  | .vote h o => Sys2Proof.Machine.execVote h o s
  | .elect h o => Sys2Proof.Machine.execElect h o s
  | .widr h o => Sys2Proof.Machine.execWidr h o s
  | .maskr h o => Sys2Proof.Machine.execMaskr h o s
  | .srd h o => Sys2Proof.Machine.execSrd h o s
  | .swr h o => Sys2Proof.Machine.execSwr h o s
  | .sadd h o => Sys2Proof.Machine.execSadd h o s
  | .ssub h o => Sys2Proof.Machine.execSsub h o s
  | .saddi h o => Sys2Proof.Machine.execSaddi h o s
  | .smul h o => Sys2Proof.Machine.execSmul h o s
  | .smulh h o => Sys2Proof.Machine.execSmulh h o s
  | .sdiv h o => Sys2Proof.Machine.execSdiv h o s
  | .srem h o => Sys2Proof.Machine.execSrem h o s
  | .sand h o => Sys2Proof.Machine.execSand h o s
  | .sor h o => Sys2Proof.Machine.execSor h o s
  | .sxor h o => Sys2Proof.Machine.execSxor h o s
  | .sandi h o => Sys2Proof.Machine.execSandi h o s
  | .sori h o => Sys2Proof.Machine.execSori h o s
  | .sshl h o => Sys2Proof.Machine.execSshl h o s
  | .sshr h o => Sys2Proof.Machine.execSshr h o s
  | .ssar h o => Sys2Proof.Machine.execSsar h o s
  | .smin h o => Sys2Proof.Machine.execSmin h o s
  | .smax h o => Sys2Proof.Machine.execSmax h o s
  | .scmp h o => Sys2Proof.Machine.execScmp h o s
  | .ssel h o => Sys2Proof.Machine.execSsel h o s
  | .smov h o => Sys2Proof.Machine.execSmov h o s
  | .sli h o => Sys2Proof.Machine.execSli h o s
  | .slih h o => Sys2Proof.Machine.execSlih h o s
  | .sclz h o => Sys2Proof.Machine.execSclz h o s
  | .spop h o => Sys2Proof.Machine.execSpop h o s
  | .sbfx h o => Sys2Proof.Machine.execSbfx h o s
  | .sbfi h o => Sys2Proof.Machine.execSbfi h o s
  | .slea h o => Sys2Proof.Machine.execSlea h o s
  | .sv2s h o => Sys2Proof.Machine.execSv2s h o s
  | .vadd h o => Sys2Proof.Machine.execVadd h o s
  | .vsub h o => Sys2Proof.Machine.execVsub h o s
  | .vaddi h o => Sys2Proof.Machine.execVaddi h o s
  | .vmul h o => Sys2Proof.Machine.execVmul h o s
  | .vmulh h o => Sys2Proof.Machine.execVmulh h o s
  | .vmad h o => Sys2Proof.Machine.execVmad h o s
  | .vdot2 h o => Sys2Proof.Machine.execVdot2 h o s
  | .vdot4 h o => Sys2Proof.Machine.execVdot4 h o s
  | .vabs h o => Sys2Proof.Machine.execVabs h o s
  | .vneg h o => Sys2Proof.Machine.execVneg h o s
  | .vmin h o => Sys2Proof.Machine.execVmin h o s
  | .vmax h o => Sys2Proof.Machine.execVmax h o s
  | .vand h o => Sys2Proof.Machine.execVand h o s
  | .vor h o => Sys2Proof.Machine.execVor h o s
  | .vxor h o => Sys2Proof.Machine.execVxor h o s
  | .vnot h o => Sys2Proof.Machine.execVnot h o s
  | .vshl h o => Sys2Proof.Machine.execVshl h o s
  | .vshr h o => Sys2Proof.Machine.execVshr h o s
  | .vsar h o => Sys2Proof.Machine.execVsar h o s
  | .vrshr h o => Sys2Proof.Machine.execVrshr h o s
  | .vsat h o => Sys2Proof.Machine.execVsat h o s
  | .vclz h o => Sys2Proof.Machine.execVclz h o s
  | .vpop h o => Sys2Proof.Machine.execVpop h o s
  | .vcmp h o => Sys2Proof.Machine.execVcmp h o s
  | .vsel h o => Sys2Proof.Machine.execVsel h o s
  | .vmov h o => Sys2Proof.Machine.execVmov h o s
  | .vbcst h o => Sys2Proof.Machine.execVbcst h o s
  | .vli h o => Sys2Proof.Machine.execVli h o s
  | .vpack h o => Sys2Proof.Machine.execVpack h o s
  | .vunpk h o => Sys2Proof.Machine.execVunpk h o s
  | .viota h o => Sys2Proof.Machine.execViota h o s
  | .fadd h o => Sys2Proof.Machine.execFadd h o s
  | .fsub h o => Sys2Proof.Machine.execFsub h o s
  | .fmul h o => Sys2Proof.Machine.execFmul h o s
  | .ffma h o => Sys2Proof.Machine.execFfma h o s
  | .fmin h o => Sys2Proof.Machine.execFmin h o s
  | .fmax h o => Sys2Proof.Machine.execFmax h o s
  | .fcmp h o => Sys2Proof.Machine.execFcmp h o s
  | .fcvt h o => Sys2Proof.Machine.execFcvt h o s
  | .frcp h o => Sys2Proof.Machine.execFrcp h o s
  | .frsq h o => Sys2Proof.Machine.execFrsq h o s
  | .fexp2 h o => Sys2Proof.Machine.execFexp2 h o s
  | .flog2 h o => Sys2Proof.Machine.execFlog2 h o s
  | .fclass h o => Sys2Proof.Machine.execFclass h o s
  | .fscl h o => Sys2Proof.Machine.execFscl h o s
  | .xlane h o => Sys2Proof.Machine.execXlane h o s
  | .slide h o => Sys2Proof.Machine.execSlide h o s
  | .perm h o => Sys2Proof.Machine.execPerm h o s
  | .ptld h o => Sys2Proof.Machine.execPtld h o s
  | .vred h o => Sys2Proof.Machine.execVred h o s
  | .vscan h o => Sys2Proof.Machine.execVscan h o s
  | .topk h o => Sys2Proof.Machine.execTopk h o s
  | .topkx h o => Sys2Proof.Machine.execTopkx h o s
  | .pand h o => Sys2Proof.Machine.execPand h o s
  | .por h o => Sys2Proof.Machine.execPor h o s
  | .pxor h o => Sys2Proof.Machine.execPxor h o s
  | .pnot h o => Sys2Proof.Machine.execPnot h o s
  | .ldtld h o => Sys2Proof.Machine.execLdtld h o s
  | .cinit h o => Sys2Proof.Machine.execCinit h o s
  | .cinitA h o => Sys2Proof.Machine.execCinitA h o s
  | .cdesc h o => Sys2Proof.Machine.execCdesc h o s
  | .cnext h o => Sys2Proof.Machine.execCnext h o s
  | .cseek h o => Sys2Proof.Machine.execCseek h o s
  | .ccoit h o => Sys2Proof.Machine.execCcoit h o s
  | .ccrd h o => Sys2Proof.Machine.execCcrd h o s
  | .cpos h o => Sys2Proof.Machine.execCpos h o s
  | .cvld h o => Sys2Proof.Machine.execCvld h o s
  | .cvst h o => Sys2Proof.Machine.execCvst h o s
  | .capp h o => Sys2Proof.Machine.execCapp h o s
  | .cclose h o => Sys2Proof.Machine.execCclose h o s
  | .cheap h o => Sys2Proof.Machine.execCheap h o s
  | .cmov h o => Sys2Proof.Machine.execCmov h o s
  | .ctest h o => Sys2Proof.Machine.execCtest h o s
  | .cpref h o => Sys2Proof.Machine.execCpref h o s
  | .ld h o => Sys2Proof.Machine.execLd h o s
  | .st h o => Sys2Proof.Machine.execSt h o s
  | .lda h o => Sys2Proof.Machine.execLda h o s
  | .stl h o => Sys2Proof.Machine.execStl h o s
  | .ldt h o => Sys2Proof.Machine.execLdt h o s
  | .ldtt h o => Sys2Proof.Machine.execLdtt h o s
  | .stt h o => Sys2Proof.Machine.execStt h o s
  | .atom h o => Sys2Proof.Machine.execAtom h o s
  | .fence h o => Sys2Proof.Machine.execFence h o s
  | .cinv h o => Sys2Proof.Machine.execCinv h o s
  | .pref h o => Sys2Proof.Machine.execPref h o s
  | .cpy h o => Sys2Proof.Machine.execCpy h o s
  | .cpyt h o => Sys2Proof.Machine.execCpyt h o s
  | .cpyg h o => Sys2Proof.Machine.execCpyg h o s
  | .coll h o => Sys2Proof.Machine.execColl h o s
  | .wbld h o => Sys2Proof.Machine.execWbld h o s
  | .wbinv h o => Sys2Proof.Machine.execWbinv h o s
  | .azero h o => Sys2Proof.Machine.execAzero h o s
  | .mma h o => Sys2Proof.Machine.execMma h o s
  | .mmas h o => Sys2Proof.Machine.execMmas h o s
  | .aprom h o => Sys2Proof.Machine.execAprom h o s
  | .adrn h o => Sys2Proof.Machine.execAdrn h o s
  | .ard h o => Sys2Proof.Machine.execArd h o s
  | .awr h o => Sys2Proof.Machine.execAwr h o s
  | .barv h o => Sys2Proof.Machine.execBarv h o s
  | .bwait h o => Sys2Proof.Machine.execBwait h o s
  | .bsync h o => Sys2Proof.Machine.execBsync h o s
  | .bdrop h o => Sys2Proof.Machine.execBdrop h o s
  | .bexp h o => Sys2Proof.Machine.execBexp h o s
  | .cbar h o => Sys2Proof.Machine.execCbar h o s
  | .gbar h o => Sys2Proof.Machine.execGbar h o s
  | .dcset h o => Sys2Proof.Machine.execDcset h o s
  | .dcadd h o => Sys2Proof.Machine.execDcadd h o s
  | .dcwait h o => Sys2Proof.Machine.execDcwait h o s
  | .time h o => Sys2Proof.Machine.execTime h o s
  | .cyc h o => Sys2Proof.Machine.execCyc h o s
  | .enq h o => Sys2Proof.Machine.execEnq h o s
  | .deq h o => Sys2Proof.Machine.execDeq h o s
  | .deqHdr h o => Sys2Proof.Machine.execDeqHdr h o s
  | .deqArg h o => Sys2Proof.Machine.execDeqArg h o s
  | .qcwRd h o => Sys2Proof.Machine.execQcwRd h o s
  | .qcwRst h o => Sys2Proof.Machine.execQcwRst h o s
  | .qpush h o => Sys2Proof.Machine.execQpush h o s
  | .qpop h o => Sys2Proof.Machine.execQpop h o s
  | .qpeek h o => Sys2Proof.Machine.execQpeek h o s
  | .debugStop core slot => Sys2Proof.Machine.execDebugStop core slot s
  | .instructionCompletion core slot op => Sys2Proof.Machine.execInstructionCompletion core slot op s
  | .faultRaise core slot => Sys2Proof.Machine.execFaultRaise core slot s
  | .deferredRecordWrite die => Sys2Proof.Machine.execDeferredRecordWrite die s
  | .waitTimeout core slot => Sys2Proof.Machine.execWaitTimeout core slot s
  | .classPromotion core slot => Sys2Proof.Machine.execClassPromotion core slot s
  | .hostEnqueue fn q off data => Sys2Proof.Machine.execHostEnqueue fn q off data s
  | .dispatchStep die => Sys2Proof.Machine.execDispatchStep die s
  | .startTimeReached q take => Sys2Proof.Machine.execStartTimeReached q take s
  | .taskCompletion q take => Sys2Proof.Machine.execTaskCompletion q take s
  | .steal die => Sys2Proof.Machine.execSteal die s
  | .copyBlock core id => Sys2Proof.Machine.execCopyBlock core id s
  | .collMatch core id peers => Sys2Proof.Machine.execCollMatch core id peers s
  | .collCompletion core id peers => Sys2Proof.Machine.execCollCompletion core id peers s
  | .fifoHeadLeave core => Sys2Proof.Machine.execFifoHeadLeave core s
  | .mmaChunk core => Sys2Proof.Machine.execMmaChunk core s
  | .drainExecute core => Sys2Proof.Machine.execDrainExecute core s
  | .wbldCompletion core slotk => Sys2Proof.Machine.execWbldCompletion core slotk s
  | .groupSave core grp => Sys2Proof.Machine.execGroupSave core grp s
  | .kill die word => Sys2Proof.Machine.execKill die word s
  | .preempt die word => Sys2Proof.Machine.execPreempt die word s
  | .resume die word => Sys2Proof.Machine.execResume die word s
  | .resolve die word => Sys2Proof.Machine.execResolve die word s
  | .invalidateAll die word => Sys2Proof.Machine.execInvalidateAll die word s
  | .invalidateTenant die word => Sys2Proof.Machine.execInvalidateTenant die word s
  | .invalidatePages die word => Sys2Proof.Machine.execInvalidatePages die word s
  | .taskQueueStateWrite q word => Sys2Proof.Machine.execTaskQueueStateWrite q word s
  | .contextEntryWrite k word => Sys2Proof.Machine.execContextEntryWrite k word s
  | .gridMapWrite k word => Sys2Proof.Machine.execGridMapWrite k word s
  | .importWindowWrite k word => Sys2Proof.Machine.execImportWindowWrite k word s
  | .vfBindingWrite k word => Sys2Proof.Machine.execVfBindingWrite k word s
  | .hostRegisterWrite off data => Sys2Proof.Machine.execHostRegisterWrite off data s
  | .spinthWrite core v => Sys2Proof.Machine.execSpinthWrite core v s
  | .aelogWrite core v => Sys2Proof.Machine.execAelogWrite core v s
  | .bkctlWrite core k v => Sys2Proof.Machine.execBkctlWrite core k v s
  | .ssctlWrite core v => Sys2Proof.Machine.execSsctlWrite core v s
  | .spcWrite core j v => Sys2Proof.Machine.execSpcWrite core j v s
  | .stallSample core => Sys2Proof.Machine.execStallSample core s
  | .hostMemoryRead fn off len => Sys2Proof.Machine.execHostMemoryRead fn off len s
  | .hostMemoryWrite fn off data => Sys2Proof.Machine.execHostMemoryWrite fn off data s
  | .atsInvalidation fn va => Sys2Proof.Machine.execAtsInvalidation fn va s
  | .flitReceive port flit => Sys2Proof.Machine.execFlitReceive port flit s
  | .linkRetrain port => Sys2Proof.Machine.execLinkRetrain port s
  | .laneRotation port weak => Sys2Proof.Machine.execLaneRotation port weak s
  | .remoteRequest req => Sys2Proof.Machine.execRemoteRequest req s
  | .pathDown dev => Sys2Proof.Machine.execPathDown dev s
  | .gridArrivalMessage k dev n => Sys2Proof.Machine.execGridArrivalMessage k dev n s
  | .gridCompletionMessage k status => Sys2Proof.Machine.execGridCompletionMessage k status s
  | .sensorPeriod temps power => Sys2Proof.Machine.execSensorPeriod temps power s
  | .relockBegin die => Sys2Proof.Machine.execRelockBegin die s
  | .relockEnd die => Sys2Proof.Machine.execRelockEnd die s
  | .ppsPulse => Sys2Proof.Machine.execPpsPulse s
  | .ptpLoss => Sys2Proof.Machine.execPtpLoss s
  | .epoch => Sys2Proof.Machine.execEpoch s
  | .errorDetection site unc => Sys2Proof.Machine.execErrorDetection site unc s
  | .errorWindowExpiry core => Sys2Proof.Machine.execErrorWindowExpiry core s
  | .ueExpiry core k => Sys2Proof.Machine.execUeExpiry core k s
  | .lastingFaultAction core k => Sys2Proof.Machine.execLastingFaultAction core k s
  | .rowSpareEffect core k => Sys2Proof.Machine.execRowSpareEffect core k s
  | .fatalCondition odie core cause strct => Sys2Proof.Machine.execFatalCondition odie core cause strct s
  | .freezeReceipt die miss => Sys2Proof.Machine.execFreezeReceipt die miss s
  | .capsuleAssembly salt => Sys2Proof.Machine.execCapsuleAssembly salt s
  | .warmReset => Sys2Proof.Machine.execWarmReset s
  | .coreCycle die => Sys2Proof.Machine.execCoreCycle die s
  | .linkRetrainComplete port lanes => Sys2Proof.Machine.execLinkRetrainComplete port lanes s
  | .spdmGetVersion req => Sys2Proof.Machine.execSpdmGetVersion req s
  | .spdmGetCapabilities req => Sys2Proof.Machine.execSpdmGetCapabilities req s
  | .spdmNegotiateAlgorithms req => Sys2Proof.Machine.execSpdmNegotiateAlgorithms req s
  | .spdmGetDigests req => Sys2Proof.Machine.execSpdmGetDigests req s
  | .spdmGetCertificate req => Sys2Proof.Machine.execSpdmGetCertificate req s
  | .spdmChallenge req => Sys2Proof.Machine.execSpdmChallenge req s
  | .spdmGetMeasurements req => Sys2Proof.Machine.execSpdmGetMeasurements req s
  | .ptpMessage time => Sys2Proof.Machine.execPtpMessage time s
  | .powerOnReset standby => Sys2Proof.Machine.execPowerOnReset standby s
  | .mailboxId fn tag req => Sys2Proof.Machine.execMailboxId fn tag req s
  | .fwload fn tag req data => Sys2Proof.Machine.execFwload fn tag req data s
  | .cert fn tag req => Sys2Proof.Machine.execCert fn tag req s
  | .step fn tag req => Sys2Proof.Machine.execStep fn tag req s
  | .limitsRead fn tag req => Sys2Proof.Machine.execLimitsRead fn tag req s
  | .limitsSet fn tag req => Sys2Proof.Machine.execLimitsSet fn tag req s
  | .stateActive fn tag req => Sys2Proof.Machine.execStateActive fn tag req s
  | .stateQuiesce fn tag req => Sys2Proof.Machine.execStateQuiesce fn tag req s
  | .stateStandby fn tag req => Sys2Proof.Machine.execStateStandby fn tag req s
  | .stateWarmReset fn tag req => Sys2Proof.Machine.execStateWarmReset fn tag req s
  | .svnset fn tag req => Sys2Proof.Machine.execSvnset fn tag req s
  | .mailboxTime fn tag req => Sys2Proof.Machine.execMailboxTime fn tag req s
  | .errors fn tag req => Sys2Proof.Machine.execErrors fn tag req s
  | .clear fn tag req => Sys2Proof.Machine.execClear fn tag req s
  | .caplist fn tag req => Sys2Proof.Machine.execCaplist fn tag req s
  | .capget fn tag req => Sys2Proof.Machine.execCapget fn tag req s
  | .capack fn tag req => Sys2Proof.Machine.execCapack fn tag req s
  | .capfreeze fn tag req => Sys2Proof.Machine.execCapfreeze fn tag req s
  | .powerLoss standby => Sys2Proof.Machine.execPowerLoss standby s

end Sys2Proof.Machine
end

