-- ==== Sys2Proof/Machine/Tick.lean ====
section
/-! DEFINITION. What a step does around an instruction or an event: the turn of an agent, the next event, a nanosecond of reference
time; and how a word is placed so that the next step issues it. -/

namespace Sys2Proof.Machine

/-! Reference time (16 R369). -/

/-- Core cycles of a step per nanosecond, in tenths (01 R13, R425). -/
def cycTenths (step : Nat) : Nat := match step with | 0 => 9 | 1 => 12 | 2 => 15 | _ => 18

/-- A die as a nanosecond passes: core cycles fall due; in a relock CYCN goes on by 460.8 units of 1/256 (R372), and the recorders, on the
fabric clock, go on (R317). -/
def State.dieNs (s : State) (d : Nat) : State :=
  match (s.die d).clk.relock with
  | none => s.onClk d (fun c => { c with owed := c.owed + 1000000000 * cycTenths c.step })
  | some n =>
    let s := (s.liveCores d).foldl (fun s k => s.onCore k (fun c => c.recorderCycle s.seq s.time)) s
    (s.onClk d (fun c => { c.addNorm 2304 with relock := some (n - 1) })).endRelock d

/-- Whether the dies run: released in step 6 of reset (19 R420), not in STANDBY (19 R427). -/
def State.running (s : State) : Bool := (s.ctrl.boot == 6 || s.ctrl.boot == 7) && s.ctrl.power != 2

/-- One nanosecond. -/
def State.elapseNs (s : State) : State :=
  let s : State := { s with time := s.time + 1 }
  let s := if s.running then (List.range 4).foldl (fun s d => s.dieNs d) s else s
  let s := (if s.running then s.markEpoch.rollErrs else s).bootTick.freezeDue
  (s.ports.map Prod.fst).foldl (fun s n => s.portTick n) s

/-! Turns. -/

/-- A step's end: the device settles, and the free values of the next step are others. -/
def State.endStep (s : State) : State := { s.settle with seq := s.seq + 1 }

/-- The step's end after an agent's instruction: `a` is the state before the prologue. -/
def endRun (a : State) (w : Word) : Out → Out
  | .next b => .next (a.closeTurn b w).endStep
  | .fault f => .fault f
  | .refused r => .refused r

/-- The turn of a selected agent. -/
def State.agentTurn (s : State) : Out :=
  match s.plan with
  | .idle s => .next s.endStep
  | .bad w b => .next (s.joined.closeTurn b w).endStep
  | .run i w b => endRun s.joined w (exec i b)

/-- Whether an instruction is an event of the device. -/
def isEvent (i : Instr) : Bool := (encode i).isNone

/-- The turn of an event, or of a nanosecond. -/
def State.eventTurn (s : State) : Turn → Out
  | .elapse => .next s.elapseNs.endStep
  | .occur i =>
    if !isEvent i then .fault .notAnEvent
    else match exec i s with
      | .next t => .next t.endStep
      | .fault f => .fault f
      | .refused r => .refused r

/-! What comes next by itself, when the agenda is empty. -/

/-- What the engines and teams of a core may do. -/
def State.coreEvents (s : State) (k : Nat) : List Instr :=
  let c := s.core k
  let m := c.mat
  c.teams.flatMap (fun t =>
    (t.2.fly.filter (s.canComplete k t.1)).map (fun f => .instructionCompletion k t.1 f.id)
    ++ (if t.2.flt.win.isSome then [.faultRaise k t.1] else []))
  ++ c.copies.map (fun x => .copyBlock k x.id)
  ++ (if m.fifo.isEmpty then [] else [.fifoHeadLeave k]) ++ (if m.mmas.isEmpty then [] else [.mmaChunk k])
  ++ (if m.drain.isSome then [.drainExecute k] else []) ++ (if m.loads.isEmpty then [] else (List.range 8).map (fun w => .wbldCompletion k w))
  ++ (c.groups.filter (fun g => g.2.saving)).map (fun g => .groupSave k g.1)
  ++ (c.ctl.errs.flatMap (fun e =>
    (if e.2.last then [.lastingFaultAction k e.1] else []) ++ (if e.2.rows.isEmpty then [] else [.rowSpareEffect k e.1])
    ++ (if e.2.times.isEmpty then [] else [.ueExpiry k e.1])))
  ++ (if c.ctl.errs.isEmpty then [] else [.errorWindowExpiry k])

/-- What the units of a die may do. -/
def State.dieEvents (s : State) (d : Nat) : List Instr :=
  let x := s.die d
  (if x.queues.isEmpty && x.disp.active.isEmpty then [] else [.dispatchStep d])
  ++ (if x.disp.idle.isNone then [] else [.steal d])
  ++ (if x.fq.waiting.isEmpty then [] else [.deferredRecordWrite d])
  ++ (if s.ctrl.freezes.isEmpty || x.frozen then [] else [.freezeReceipt d []])

/-- What the device as a whole may do. -/
def State.deviceEvents (s : State) : List Instr :=
  (s.tasks.filter (fun t => t.2.live)).flatMap (fun t =>
    [.taskCompletion (t.1 / 2 ^ 32) (t.1 % 2 ^ 32), .startTimeReached (t.1 / 2 ^ 32) (t.1 % 2 ^ 32)])
  ++ (if s.assembling then [.freezeReceipt 4 [], .freezeReceipt 5 [], .capsuleAssembly []] else [])

/-- A core cycle that is due, or a relock before it (R425). -/
def State.dueCycle (s : State) : Option Nat := (List.range 4).find? s.atBoundary

/-- What may happen by itself now, core cycles apart. -/
def State.mayHappen (s : State) : List Instr :=
  (s.cores.map Prod.fst).flatMap s.coreEvents ++ (List.range 4).flatMap s.dieEvents ++ s.deviceEvents

/-- The next turn of an empty agenda: a core cycle that is due; else in rotation each thing that may happen, and a nanosecond. -/
def State.nextTurn (s : State) : Turn :=
  match s.dueCycle with
  | some d => .occur (.coreCycle d)
  | none =>
    let es := s.mayHappen
    match es[s.turn % (es.length + 1)]? with
    | some i => .occur i
    | none => .elapse

/-- The device's own turn. -/
def State.ownTurn (s : State) : Out :=
  State.eventTurn { s with turn := if s.dueCycle.isSome then s.turn else s.turn + 1 } s.nextTurn

/-! A word placed for the next step (03 R53, 15 R335 to R337, 10 R241). -/

/-- First bytes of the four tables and of the page that hold a placed program. -/
def placeTable (lvl : Nat) : Nat := 0x10_0000 + 0x8000 * lvl
def placePage : Nat := 0x20_0000

/-- A leaf: V, LEAF, RD, W, X, tenant 1, ordering kind RC, HBM. -/
def placeLeaf : Nat := placePage + 0xE3 + 2 ^ 56 + 2 ^ 75

/-- The memory of a placed word at address 0 of tenant 1. -/
def Memory.place (m : Memory) (word : Word) : Memory :=
  let m := ((m.writeLe (placeTable 0) 16 (placeTable 1 + 1)).writeLe (placeTable 1) 16 (placeTable 2 + 1)).writeLe (placeTable 2) 16 (placeTable 3 + 1)
  (m.writeLe (placeTable 3) 16 placeLeaf).writeLe placePage 8 word.toNat

/-- The role that may issue a word (02 R22). -/
def placeRole (word : Word) : Nat :=
  let opc := wOpc word
  if 0x18B ≤ opc ∧ opc ≤ 0x18E then 1 else if 0x1A0 ≤ opc ∧ opc ≤ 0x1A8 then 2 else 0

/-- A core with one group of one team of 32 lanes about to issue at address 0. -/
def placeCore (word : Word) : Core :=
  let id : TeamId := { role := placeRole word, budget := 64, tenant := 1, prv := true }
  let team : Team := { st := 1, id := id, path := { mask := Mask.of (lanesBelow 32) } }
  let group : Group := { tenant := 1, slots := [0], size := 0x1000, nbar := 1, mtx := placeRole word == 2 }
  { teams := [(0, team)], groups := [(0, group)], mat := { holder := if placeRole word = 2 then some 0 else none } }

/-- A word placed, and the team that issues it selected: what dispatch, a program's load and the issue logic would do. -/
def State.placeWord (s : State) (word : Word) : State :=
  let s := s.onMem (·.place word)
  let s : State := { s with io := { s.io with roots := Tbl.set 0 s.io.roots 1 (BitVec.ofNat 64 (2 ^ 63 + placeTable 0)) }
                            tasks := Tbl.set {} s.tasks 0 { live := true, tenant := 1, prv := true } }
  let s := s.setCore 0 (placeCore word)
  let s := s.onDie 0 (fun d => { d with frozen := false, tlb := [], clk := { d.clk with relock := none } })
  { s with cur := .team 0 0, selected := [.team 0 0] }

end Sys2Proof.Machine
end

