-- ==== Sys2Proof/Machine/Step.lean ====
section
/-! DEFINITION. The step of the machine: an agent selected in this cycle issues; else the agenda's next event happens; else what the
device does next by itself. -/

namespace Sys2Proof.Machine

/-- One step. -/
def step (s : State) : Host.Outcome State Fault Refusal :=
  match s.selected with
  | a :: rest => State.agentTurn { s with cur := a, selected := rest }
  | [] =>
    match s.agenda with
    | t :: rest => State.eventTurn { s with agenda := rest } t
    | [] => s.ownTurn

/-- An instruction's word stored where the next step fetches, with all that its issue takes. -/
def State.withFetchWord (s : State) (nbits w : Nat) : State := s.placeWord (BitVec.ofNat 64 (w % 2 ^ nbits))

end Sys2Proof.Machine
end

