-- ==== Sys2Proof/Safety.lean ====
section
/-! DEFINITION. What counts as a safe run, and the words the statements use: when an instruction may issue (02 R22, 05 R94, R103),
what it leaves alone, and what every issue does besides its own effect (05 R89 to R91, 06 R121). -/

namespace Sys2Proof.Machine

/-- A state from which a step answers a next state. -/
def State.goesOn (s : State) : Prop := ∃ t, step s = .next t

/-- An agenda that names events only, of units that exist: what a run's environment may hold. -/
def Turn.proper : Turn → Bool
  | .elapse => true
  | .occur i => isEvent i

/-- A READY team is to issue `i`, not as a replay; `i` finds what it needs of its core free (R30), and no illegal-instruction case of R103
or role of R22 stands against it. -/
def canIssue (i : Instr) (s : State) : Bool :=
  !s.isGath && s.tm.st == 1 && !s.tm.park && !s.tm.flt.replay && (instrInfo i).legal s.tm.id.budget && roleOk s.tm.id.role (instrInfo i).opc
  && s.unitFree i

/-- A gatherer is to issue `i`, which finds what it needs free, and no illegal-instruction case of R105 or R308 stands against it. -/
def gathCanIssue (i : Instr) (s : State) : Bool :=
  s.isGath && (instrInfo i).legal 64 && (instrInfo i).gathLegal && gathOpcode (instrInfo i).opc && s.unitFree i

/-- The lanes that `i` serves (R94). -/
def State.servedBy (s : State) (i : Instr) : LaneBits :=
  if (instrInfo i).sweep then s.served (instrInfo i).head.guard else s.servedNow (instrInfo i).head.guard

/-- The lanes served, as a list in ascending order. -/
def State.lanesBy (s : State) (i : Instr) : List Nat := lanesOf s.nl (s.servedBy i)

/-- Nothing but the issuing team differs between two states. -/
def onlyTeam (s t : State) : Prop :=
  { t with cores := s.cores } = s ∧ (∀ k, k ≠ s.ck → t.core k = s.core k) ∧
    { t.cr with teams := s.cr.teams } = s.cr ∧ ∀ j, j ≠ s.slot → t.cr.team j = s.cr.team j

/-- Nothing differs but the issuing team and what `hide` erases of its core. -/
def onlyCore (hide : Core → Core) (s t : State) : Prop :=
  { t with cores := s.cores } = s ∧ (∀ k, k ≠ s.ck → t.core k = s.core k) ∧
    { hide t.cr with teams := [] } = { hide s.cr with teams := [] } ∧ ∀ j, j ≠ s.slot → t.cr.team j = s.cr.team j

/-- Hides the event recorder and the counters of dropped events (R317). -/
def hideEvents (c : Core) : Core := { c with rcd := {}, ctl := { c.ctl with pcval := [] } }

/-- The recorder of the core has accepted one event of the issuing team (R316, R317). -/
def emitted (ty payload : Nat) (clsP : Bool) (s t : State) : Prop :=
  t.cr.rcd = (s.cr.event (evWord ty s.slot s.tm.id.tenant s.time payload) clsP).rcd

/-- Of the issuing team nothing differs but its registers, its path, and the record of results not yet promised. -/
def keepsTeam (s t : State) : Prop :=
  { t.tm with regs := s.tm.regs, path := s.tm.path, haz := s.tm.haz, fly := s.tm.fly, nextId := s.tm.nextId } = s.tm

/-- The path goes on in line: PC + 8, or back to the start of a loop whose last word this was (R46, R121). -/
def advances (s t : State) : Prop := t.tm.path = loopBack s.ipc { s.tm.path with pc := nextPc s.ipc }

/-- The completion flag an instruction signals; 0 is none (R89). -/
def flagOf (i : Instr) : Nat := (instrInfo i).head.sig.toNat

/-- When the result of `i` is readable, for an instruction of fixed latency that issues now (R28, R90). -/
def dueOf (i : Instr) (s : State) : Option Nat :=
  match (instrInfo i).lat with
  | .none_ => some s.cyc
  | .fixed l => some (s.cyc + (s.sections (instrInfo i) - 1) + l)
  | .var => none

/-- The entry of `i` among the instructions issued and not complete, with the status bits to be set at its completion. -/
def entryOf (i : Instr) (bits : Nat) (s : State) : InFlight :=
  { id := s.tm.nextId, flag := flagOf i, due := dueOf i s, stat := BitVec.ofNat 32 bits, acc := decide ((instrInfo i).tgt = 2)
    curs := decide ((instrInfo i).tgt = 3), fence := (instrInfo i).opc == 0x188
    summ := if (instrInfo i).bySection then s.tm.path.mask.summ else 0 }

/-- The registers after the signal of `i`: COUNT of its flag is one more and BLAME is its PC (R50, R89). -/
def signalled (i : Instr) (s : State) : TeamRegs := (s.tm.signal (flagOf i) s.ipc).regs

/-- The registers after an instruction of latency class None: its flag has fallen again, its status bits are set (R55, R90). -/
def completed (i : Instr) (bits : Nat) (s : State) : TeamRegs :=
  (Team.unsignal { s.tm.signal (flagOf i) s.ipc with
    regs := { signalled i s with tstat := s.tm.regs.tstat ||| BitVec.ofNat 32 bits, edge := s.tm.regs.edge ||| BitVec.ofNat 32 bits } }
    (flagOf i)).regs

/-- `i` is in flight with these status bits to come (R89, R90). -/
def inFlight (i : Instr) (bits : Nat) (s t : State) : Prop :=
  t.tm.fly = entryOf i bits s :: s.tm.fly ∧ t.tm.nextId = s.tm.nextId + 1

/-- `i` has issued and completed at once (R90, class None). -/
def isComplete (s t : State) : Prop :=
  t.tm.fly = s.tm.fly.filter (fun f => f.id != s.tm.nextId) ∧ t.tm.nextId = s.tm.nextId + 1

/-- No incomplete variable-latency write of register `r` in lane `l` (R91): a write now is the value read later. -/
def settled (s : State) (r : RegName) (l : Nat) : Prop := s.tm.varPending none r l = false

end Sys2Proof.Machine
end

