-- ==== Sys2Proof/Certificates/Slice0/Obligations.lean ====
section
/-! DEFINITION. The statements, and the tables of results they speak of, written from the rules of spec/. -/

namespace Sys2Proof.Machine

/-! The scalar range (07 R139 to R141). -/

/-- An integer value of a word of `w` bits, as the type has it (R64). -/
def iv (sg : Bool) (w x : Nat) : Int := if sg then (BitVec.ofNat w x).toInt else (BitVec.ofNat w x).toNat

/-- `Sat` and `SatN` of R64, with SAT of TSTAT (bit 5, R55) when they clamp. -/
def satTo (sg : Bool) (w : Nat) (v : Int) : Nat × Nat :=
  let hi : Int := if sg then 2 ^ (w - 1) - 1 else 2 ^ w - 1
  let lo : Int := if sg then -2 ^ (w - 1) else 0
  if hi < v then ((BitVec.ofInt w hi).toNat, 32)
  else if v < lo then ((BitVec.ofInt w lo).toNat, 32)
  else ((BitVec.ofInt w v).toNat, 0)

/-- Whether a type code is a signed integer type (R63). -/
def sgTy (t : Nat) : Bool := decide (t ≤ 4)

/-- A scalar result with SAT when `.sat` is set, else the wrapped word (R140). -/
def satOr (sat sg : Bool) (v : Int) (wrapped : Word) : Word × Nat :=
  if sat then (BitVec.ofNat 64 (satTo sg 64 v).1, (satTo sg 64 v).2) else (wrapped, 0)

/-- Destination, result and status bits of the scalar arithmetic: R139, R140. -/
def scalarArith (s : State) : Instr → Option (Nat × Word × Nat)
  | .sadd _ o =>
    let a := s.rs o.a.toNat; let b := s.rs o.b.toNat; let g := sgTy o.ty.toNat
    some (o.d.toNat, satOr o.x g (iv g 64 a.toNat + iv g 64 b.toNat) (a + b))
  | .ssub _ o =>
    let a := s.rs o.a.toNat; let b := s.rs o.b.toNat; let g := sgTy o.ty.toNat
    some (o.d.toNat, satOr o.x g (iv g 64 a.toNat - iv g 64 b.toNat) (a - b))
  | .smul _ o =>
    let a := s.rs o.a.toNat; let b := s.rs o.b.toNat; let g := sgTy o.ty.toNat
    some (o.d.toNat, satOr o.x g (iv g 64 a.toNat * iv g 64 b.toNat) (a * b))
  | .smulh _ o =>
    let a := s.rs o.a.toNat; let b := s.rs o.b.toNat
    some (o.d.toNat, if sgTy o.ty.toNat then ((a.signExtend 128 * b.signExtend 128).extractLsb' 64 64)
      else ((a.zeroExtend 128 * b.zeroExtend 128).extractLsb' 64 64), 0)
  | .saddi _ o => some (o.d.toNat, s.rs o.a.toNat + o.imm.signExtend 64, 0)
  | .slea _ o => some (o.d.toNat, s.rs o.a.toNat + s.rs o.b.toNat <<< o.c.toNat, 0)
  | .smin _ o =>
    let a := s.rs o.a.toNat; let b := s.rs o.b.toNat
    some (o.d.toNat, if (if sgTy o.ty.toNat then a.slt b else a.ult b) then a else b, 0)
  | .smax _ o =>
    let a := s.rs o.a.toNat; let b := s.rs o.b.toNat
    some (o.d.toNat, if (if sgTy o.ty.toNat then a.slt b else a.ult b) then b else a, 0)
  | _ => none

/-- SDIV and SREM: R140. -/
def scalarDivide (s : State) : Instr → Option (Nat × Word × Nat)
  | .sdiv _ o =>
    let a := s.rs o.a.toNat; let b := s.rs o.b.toNat
    some (o.d.toNat, if b = 0 then 0 else if sgTy o.ty.toNat then a.sdiv b else a.udiv b, 0)
  | .srem _ o =>
    let a := s.rs o.a.toNat; let b := s.rs o.b.toNat
    some (o.d.toNat, if b = 0 then a else if sgTy o.ty.toNat then a.srem b else a.umod b, 0)
  | _ => none

/-- Bitwise operations, shifts and bit fields: R139. -/
def scalarBitwise (s : State) : Instr → Option (Nat × Word × Nat)
  | .sand _ o => some (o.d.toNat, s.rs o.a.toNat &&& s.rs o.b.toNat, 0)
  | .sor _ o => some (o.d.toNat, s.rs o.a.toNat ||| s.rs o.b.toNat, 0)
  | .sxor _ o => some (o.d.toNat, s.rs o.a.toNat ^^^ s.rs o.b.toNat, 0)
  | .sandi _ o => some (o.d.toNat, s.rs o.a.toNat &&& o.imm.signExtend 64, 0)
  | .sori _ o => some (o.d.toNat, s.rs o.a.toNat ||| o.imm.signExtend 64, 0)
  | .sshl _ o => some (o.d.toNat, s.rs o.a.toNat <<< s.rs o.b.toNat, 0)
  | .sshr _ o => some (o.d.toNat, s.rs o.a.toNat >>> s.rs o.b.toNat, 0)
  | .ssar _ o => some (o.d.toNat, (s.rs o.a.toNat).sshiftRight (s.rs o.b.toNat).toNat, 0)
  | .sclz _ o => some (o.d.toNat, BitVec.ofNat 64 ((List.range 64).countP (fun n => decide ((s.rs o.a.toNat).toNat < 2 ^ n))), 0)
  | .spop _ o => some (o.d.toNat, BitVec.ofNat 64 ((List.range 64).countP (fun n => (s.rs o.a.toNat).getLsbD n)), 0)
  | .sbfx _ o =>
    let f := (s.rs o.a.toNat).extractLsb' o.b.toNat (o.c.toNat + 1)
    some (o.d.toNat, if sgTy o.ty.toNat then f.signExtend 64 else f.zeroExtend 64, 0)
  | .sbfi _ o => some (o.d.toNat, BitVec.ofNat 64 ((List.range 64).foldl (fun acc n =>
      acc + (if o.b.toNat ≤ n ∧ n < o.b.toNat + o.c.toNat + 1 then (s.rs o.a.toNat).getLsbD (n - o.b.toNat)
        else (s.rs o.d.toNat).getLsbD n).toNat * 2 ^ n) 0), 0)
  | _ => none

/-- The conditions of R141 on exact values. -/
def holdsCond (c : Nat) (x y : Int) : Bool :=
  (c == 0 && decide (x = y)) || (c == 1 && decide (x ≠ y)) || (c == 2 && decide (x < y)) || (c == 3 && decide (x ≤ y)) ||
    (c == 4 && decide (x > y)) || (c == 5 && decide (x ≥ y))

/-- The outcome of SCMP (R141). -/
def scmpHolds (s : State) (o : FmtA) : Bool :=
  let g := sgTy o.ty.toNat
  holdsCond (o.c.toNat % 8) (iv g 64 (s.rs o.a.toNat).toNat) (iv g 64 (s.rs o.b.toNat).toNat)

/-- Moves and immediates (R139), and SCMP without `.p` (R141). -/
def scalarMove (s : State) : Instr → Option (Nat × Word × Nat)
  | .ssel _ o => some (o.d.toNat, if s.rs o.c.toNat ≠ 0 then s.rs o.a.toNat else s.rs o.b.toNat, 0)
  | .smov _ o => some (o.d.toNat, s.rs o.a.toNat, 0)
  | .sli _ o => some (o.d.toNat, o.imm.signExtend 64, 0)
  | .slih _ o => some (o.d.toNat, s.rs o.d.toNat <<< 24 ||| (o.imm.extractLsb' 0 24).zeroExtend 64, 0)
  | .scmp _ o => if o.c.getLsbD 3 then none else some (o.d.toNat, if scmpHolds s o then 1 else 0, 0)
  | _ => none

/-- A scalar instruction has completed its issue with result `w` in register `d` (s0 discards it, R45) and these status bits, and
nothing else of the machine differs but the flag it signals, the path and the record of results to come. -/
def scalarDone (i : Instr) (d : Nat) (w : Word) (bits : Nat) (s t : State) : Prop :=
  onlyTeam s t ∧ keepsTeam s t ∧ advances s t ∧ inFlight i bits s t ∧
    { t.tm.regs with s := s.tm.regs.s } = signalled i s ∧
    ∀ r, Tbl.get 0 t.tm.regs.s r = if r = d ∧ d ≠ 0 then w else Tbl.get 0 s.tm.regs.s r

/-- Every instruction of a table of scalar results completes with the result the table gives. -/
def scalarRule (tbl : State → Instr → Option (Nat × Word × Nat)) : Prop :=
  ∀ s i d w bits, tbl s i = some (d, w, bits) → canIssue i s = true → s.servedBy i ≠ 0 → settled s (.s d) 0 →
    ∃ t, exec i s = .next t ∧ scalarDone i d w bits s t

/-! Lane-wise results (07 R135, R143 to R167). -/

/-- What a lane-wise instruction does: destination, element width, whether no source it reads is poisoned (R42), and for lane `l`
and element `k` the value and the status bits. -/
structure LaneResult where
  d : Nat
  w : Nat
  clean : Bool
  el : Nat → Nat → Nat × Nat

/-- No vector source is poisoned in a lane served. -/
def cleanIn (s : State) (i : Instr) (srcs : List Nat) : Bool :=
  (s.lanesBy i).all (fun l => srcs.all (fun r => !(s.rv r l).pz))

/-- Operand B of format A as a vector source, when it is one (R96). -/
def vb (o : FmtA) : List Nat := if o.bs then [] else [o.b.toNat]

/-- The 64 bits of operand A, B and C in a lane (R135). -/
def wa (s : State) (o : FmtA) (l : Nat) : Nat := (s.rv o.a.toNat l).val.toNat
def wb (s : State) (o : FmtA) (l : Nat) : Nat := (if o.bs then s.rs o.b.toNat else (s.rv o.b.toNat l).val).toNat
def wc3 (s : State) (o : FmtA) (l : Nat) : Nat := (s.rv o.c.toNat l).val.toNat

/-- A lane-wise instruction of operands A and B per sub-element of its type. -/
def ab (s : State) (i : Instr) (o : FmtA) (f : Nat → Nat → Nat × Nat) : Option LaneResult :=
  let w := tyWidth o.ty.toNat
  some { d := o.d.toNat, w := w, clean := cleanIn s i (o.a.toNat :: vb o)
         el := fun l k => f (sub w k (wa s o l)) (sub w k (wb s o l)) }

/-- A lane-wise instruction of operand A alone. -/
def a1 (s : State) (i : Instr) (o : FmtA) (f : Nat → Nat × Nat) : Option LaneResult :=
  let w := tyWidth o.ty.toNat
  some { d := o.d.toNat, w := w, clean := cleanIn s i [o.a.toNat], el := fun l k => f (sub w k (wa s o l)) }

/-- An exact result clamped under `.sat`, else wrapped (R145). -/
def resTo (sat sg : Bool) (w : Nat) (v : Int) : Nat × Nat := if sat then satTo sg w v else ((BitVec.ofInt w v).toNat, 0)

/-- Integer arithmetic per sub-element: R144, R145, R146. -/
def laneArith (s : State) (i : Instr) : Option LaneResult :=
  match i with
  | .vadd _ o => ab s i o (fun a b => let w := tyWidth o.ty.toNat; let g := sgTy o.ty.toNat; resTo o.x g w (iv g w a + iv g w b))
  | .vsub _ o => ab s i o (fun a b => let w := tyWidth o.ty.toNat; let g := sgTy o.ty.toNat; resTo o.x g w (iv g w a - iv g w b))
  | .vmul _ o => ab s i o (fun a b => let w := tyWidth o.ty.toNat; let g := sgTy o.ty.toNat; resTo o.x g w (iv g w a * iv g w b))
  | .vmulh _ o => ab s i o (fun a b =>
      let w := tyWidth o.ty.toNat; let g := sgTy o.ty.toNat; ((BitVec.ofInt w (iv g w a * iv g w b / 2 ^ w)).toNat, 0))
  | .vmad _ o =>
    let w := tyWidth o.ty.toNat
    let g := sgTy o.ty.toNat
    some { d := o.d.toNat, w := w, clean := cleanIn s i (o.a.toNat :: vb o ++ [o.c.toNat])
           el := fun l k => resTo o.x g w (iv g w (sub w k (wa s o l)) * iv g w (sub w k (wb s o l)) + iv g w (sub w k (wc3 s o l))) }
  | .vaddi _ o =>
    let w := tyWidth (o.imm.extractLsb' 14 5).toNat
    some { d := o.d.toNat, w := w, clean := cleanIn s i [o.a.toNat]
           el := fun l k => ((BitVec.ofNat w (sub w k (s.rv o.a.toNat l).val.toNat) + (o.imm.extractLsb' 0 14).signExtend w).toNat, 0) }
  | .vabs _ o => a1 s i o (fun a => let w := tyWidth o.ty.toNat; resTo o.x true w |iv true w a|)
  | .vneg _ o => a1 s i o (fun a => let w := tyWidth o.ty.toNat; resTo o.x true w (-iv true w a))
  | .vmin _ o => ab s i o (fun a b => let w := tyWidth o.ty.toNat; let g := sgTy o.ty.toNat; (if iv g w a < iv g w b then a else b, 0))
  | .vmax _ o => ab s i o (fun a b => let w := tyWidth o.ty.toNat; let g := sgTy o.ty.toNat; (if iv g w a < iv g w b then b else a, 0))
  | .vdot2 _ o =>
    let g := sgTy o.ty.toNat
    some { d := o.d.toNat, w := 32, clean := cleanIn s i (o.a.toNat :: vb o ++ [o.c.toNat])
           el := fun l j => satTo true 32 (iv true 32 (sub 32 j (wc3 s o l))
             + iv g 16 (sub 16 (2 * j) (wa s o l)) * iv g 16 (sub 16 (2 * j) (wb s o l))
             + iv g 16 (sub 16 (2 * j + 1) (wa s o l)) * iv g 16 (sub 16 (2 * j + 1) (wb s o l))) }
  | .vdot4 _ o =>
    let g := sgTy o.ty.toNat
    some { d := o.d.toNat, w := 32, clean := cleanIn s i (o.a.toNat :: vb o ++ [o.c.toNat])
           el := fun l j => satTo true 32 (iv true 32 (sub 32 j (wc3 s o l))
             + iv g 8 (sub 8 (4 * j) (wa s o l)) * iv g 8 (sub 8 (4 * j) (wb s o l))
             + iv g 8 (sub 8 (4 * j + 1) (wa s o l)) * iv g 8 (sub 8 (4 * j + 1) (wb s o l))
             + iv g 8 (sub 8 (4 * j + 2) (wa s o l)) * iv g 8 (sub 8 (4 * j + 2) (wb s o l))
             + iv g 8 (sub 8 (4 * j + 3) (wa s o l)) * iv g 8 (sub 8 (4 * j + 3) (wb s o l))) }
  | _ => none

/-- Bitwise operations, shifts, counts and VSAT per sub-element: R144, R147, R148. -/
def laneBitwise (s : State) (i : Instr) : Option LaneResult :=
  match i with
  | .vand _ o => ab s i o (fun a b => (a &&& b, 0))
  | .vor _ o => ab s i o (fun a b => (a ||| b, 0))
  | .vxor _ o => ab s i o (fun a b => (a ^^^ b, 0))
  | .vnot _ o => a1 s i o (fun a => ((~~~(BitVec.ofNat (tyWidth o.ty.toNat) a)).toNat, 0))
  | .vshl _ o => ab s i o (fun a n =>
      let w := tyWidth o.ty.toNat
      let g := sgTy o.ty.toNat
      if n < w then resTo o.x g w (iv g w a * 2 ^ n)
      else if o.x then (if iv g w a = 0 then (0, 0) else if 0 < iv g w a then satTo g w (2 ^ w) else satTo g w (-2 ^ w))
      else (0, 0))
  | .vshr _ o => ab s i o (fun a n => ((BitVec.ofNat (tyWidth o.ty.toNat) a >>> n).toNat, 0))
  | .vsar _ o => ab s i o (fun a n => (((BitVec.ofNat (tyWidth o.ty.toNat) a).sshiftRight n).toNat, 0))
  | .vrshr _ o => ab s i o (fun a n =>
      let w := tyWidth o.ty.toNat
      (if n < w then (BitVec.ofInt w ((2 * iv (sgTy o.ty.toNat) w a + 2 ^ n) / 2 ^ (n + 1))).toNat else 0, 0))
  | .vsat _ o => a1 s i o (fun a =>
      let w := tyWidth o.ty.toNat
      let g := sgTy o.ty.toNat
      let v := iv g w a
      let hi : Int := if g then 2 ^ (o.c.toNat - 1) - 1 else 2 ^ o.c.toNat - 1
      let lo : Int := if g then -2 ^ (o.c.toNat - 1) else 0
      if hi < v then ((BitVec.ofInt w hi).toNat, 32) else if v < lo then ((BitVec.ofInt w lo).toNat, 32) else (a, 0))
  | .vclz _ o => a1 s i o (fun a => ((List.range (tyWidth o.ty.toNat)).countP (fun n => decide (a < 2 ^ n)), 0))
  | .vpop _ o => a1 s i o (fun a => ((List.range (tyWidth o.ty.toNat)).countP (fun n => a.testBit n), 0))
  | _ => none

/-- Moves, broadcasts, packing and identities: R133, R144, R150, R151. -/
def laneMove (s : State) (i : Instr) : Option LaneResult :=
  match i with
  | .vsel _ o => some { d := o.d.toNat, w := 64, clean := cleanIn s i [o.a.toNat, o.b.toNat]
                        el := fun l _ => (((if s.rp o.c.toNat l then s.rv o.a.toNat l else s.rv o.b.toNat l).val).toNat, 0) }
  | .vmov _ o => some { d := o.d.toNat, w := 64, clean := cleanIn s i [o.a.toNat], el := fun l _ => (wa s o l, 0) }
  | .vbcst _ o => some { d := o.d.toNat, w := tyWidth o.ty.toNat, clean := true, el := fun _ _ => ((s.rs o.b.toNat).toNat, 0) }
  | .vli _ o =>
    let w := [64, 32, 16, 8, 4].getD (o.imm.extractLsb' 22 3).toNat 0
    some { d := o.d.toNat, w := w, clean := true, el := fun _ _ => (((o.imm.extractLsb' 0 22).signExtend w).toNat, 0) }
  | .viota _ o =>
    let w := tyWidth o.ty.toNat
    some { d := o.d.toNat, w := w, clean := true, el := fun l k => (64 / w * l + k, 0) }
  | .vpack _ o =>
    let w := tyWidth o.ty.toNat
    let g := sgTy o.ty.toNat
    some { d := o.d.toNat, w := w, clean := cleanIn s i (o.a.toNat :: vb o)
           el := fun l k =>
             let x := if k < 32 / w then sub (2 * w) k (wa s o l) else sub (2 * w) (k - 32 / w) (wb s o l)
             resTo o.x g w (iv g (2 * w) x) }
  | .vunpk _ o =>
    let w := tyWidth o.ty.toNat
    let g := sgTy o.ty.toNat
    some { d := o.d.toNat, w := 2 * w, clean := cleanIn s i [o.a.toNat]
           el := fun l k => ((BitVec.ofInt (2 * w) (iv g w (sub w (o.c.toNat * (32 / w) + k) (wa s o l)))).toNat, 0) }
  | .widr _ o =>
    let g := s.grpOf
    some { d := o.d.toNat, w := 64, clean := true
           el := fun l _ => let fs := widFields g.hdr g.gidx s.tm.id.tidx l
                            (if o.c.toNat = 0 then widWord fs else (fs.getD (o.c.toNat - 1) (0, 0)).1, 0) }
  | .maskr _ o =>
    let m := if o.c.toNat = 0 then s.tm.path.mask else Mask.of s.tm.regs.rpm
    some { d := o.d.toNat, w := 32, clean := true
           el := fun l k => (if k = 0 then m.summ.toNat else (m.sect.extractLsb' (32 * (l / 32)) 32).toNat, 0) }
  | _ => none

/-- A floating-point result: the operation on decoded operands, rounded once (R67, R152); NV for a signalling operand. -/
def fpRes (o : FmtA) (xs : List Nat) (f : List Fl → Fl × Nat) : Nat × Nat :=
  let ds := xs.map (decodeFp o.ty.toNat)
  let r := roundFp o.ty.toNat o.x false (f ds).1
  (r.1, (f ds).2 ||| r.2 ||| (if ds.any Fl.isSig then 16 else 0))

/-- The floating-point range per sub-element: R152 to R154, R156 to R159. -/
def laneFloat (s : State) (i : Instr) : Option LaneResult :=
  match i with
  | .fadd _ o => ab s i o (fun a b => fpRes o [a, b] sumFl)
  | .fsub _ o => ab s i o (fun a b => fpRes o [a, b] (fun xs => sumFl [fl xs 0, (fl xs 1).neg]))
  | .fmul _ o => ab s i o (fun a b => fpRes o [a, b] (fun xs => mulFl (fl xs 0) (fl xs 1)))
  | .ffma _ o =>
    let w := tyWidth o.ty.toNat
    some { d := o.d.toNat, w := w, clean := cleanIn s i (o.a.toNat :: vb o ++ [o.c.toNat])
           el := fun l k => fpRes o [sub w k (wa s o l), sub w k (wb s o l), sub w k (wc3 s o l)] (fun xs =>
             let p := mulFl (fl xs 0) (fl xs 1)
             ((sumFl [p.1, fl xs 2]).1, p.2 ||| (sumFl [p.1, fl xs 2]).2)) }
  | .fmin _ o => ab s i o (fun a b => minMaxFp o.ty.toNat false a b)
  | .fmax _ o => ab s i o (fun a b => minMaxFp o.ty.toNat true a b)
  | .frcp _ o => a1 s i o (fun a => fpRes o [a] (fun xs => rcpFl (fl xs 0)))
  | .frsq _ o => a1 s i o (fun a => fpRes o [a] (fun xs => rsqFl (fl xs 0)))
  | .fexp2 _ o => a1 s i o (fun a => fpRes o [a] (fun xs => exp2Fl (fl xs 0)))
  | .flog2 _ o => a1 s i o (fun a => fpRes o [a] (fun xs => log2Fl (fl xs 0)))
  | .fclass _ o => a1 s i o (fun a => (classOf o.ty.toNat a, 0))
  | .fscl _ o => ab s i o (fun a b =>
      let w := tyWidth o.ty.toNat
      let x := decodeFp o.ty.toNat a
      let r := roundFp o.ty.toNat o.x false (scaleFl x (max (-4096) (min 4096 (iv true w b))))
      (r.1, scaledBits r.2 ||| (if x.isSig then 16 else 0)))
  | .fcvt _ o =>
    let n := max (-4096) (min 4096 (s.rs o.b.toNat).toInt)
    let r := fun l => fcvtLane o.ty.toNat (o.c.toNat % 32) o.x (o.c.getLsbD 5) (o.b != 0) n (wa s o l)
    some { d := o.d.toNat, w := 64, clean := cleanIn s i [o.a.toNat], el := fun l _ => r l }
  | _ => none

/-- The number of elements of the team's vector of a type, and element `e` of vector register `r`, read in core cycle `cyc` (R41, R91,
R160). -/
def teamWidth (s : State) (ty : Nat) : Nat := s.nl * (64 / tyWidth ty)
def teamElem (s : State) (cyc ty r e : Nat) : Nat :=
  let n := 64 / tyWidth ty
  sub (tyWidth ty) (e % n) (s.rvAt cyc r (e / n)).val.toNat

/-- No source element is read from a poisoned lane (R136): each with the section of the lane it goes to. -/
def cleanElems (s : State) (i : Instr) (ty r : Nat) (src : Nat → Nat → Option Nat) : Bool :=
  let n := 64 / tyWidth ty
  (s.lanesBy i).all (fun l => (List.range n).all (fun k =>
    match src l k with | some e => !(s.rvAt (s.readCyc l) r (e / n)).pz | none => true))

/-- A gather: element `k` of lane `l` takes source element `src l k`, or 0. -/
def gathers (s : State) (i : Instr) (ty d a : Nat) (ok : Bool) (src : Nat → Nat → Option Nat) : Option LaneResult :=
  some { d := d, w := tyWidth ty, clean := ok && cleanElems s i ty a src
         el := fun l k => (match src l k with | some e => teamElem s (s.readCyc l) ty a e | none => 0, 0) }

/-- The permutes whose elements come from the team's vector alone: R161, R162. -/
def laneGather (s : State) (i : Instr) : Option LaneResult :=
  match i with
  | .xlane _ o =>
    let ty := o.ty.toNat
    gathers s i ty o.d.toNat o.a.toNat (cleanIn s i (vb o)) (fun l k =>
      let j := sub (tyWidth ty) k (wb s o l)
      if j < teamWidth s ty then some j else none)
  | .slide _ o =>
    let ty := o.ty.toNat
    let W := teamWidth s ty
    gathers s i ty o.d.toNat o.a.toNat true (fun l k =>
      let j : Int := (64 / tyWidth ty * l + k : Nat) + (s.rs o.b.toNat).toInt
      if 0 ≤ j ∧ j < W then some j.toNat
      else if o.c.toNat = 0 then none
      else if o.c.toNat = 1 then some (if j < 0 then 0 else W - 1)
      else some (j % (W : Int)).toNat)
  | _ => none

/-- PERM: R163. The pattern entry is held by the team's group and no selector that an element of a lane served uses has bit 6 set. -/
def permResult (s : State) (i : Instr) (o : FmtA) : Option LaneResult :=
  let ty := o.ty.toNat
  let n := 64 / tyWidth ty
  let p := s.pat o.c.toNat
  let sel := fun l k => (p.img.extractLsb' (8 * ((n * l + k) % 64)) 8)
  gathers s i ty o.d.toNat o.a.toNat
    (p.lv && p.hold == s.tm.id.grp && (s.lanesBy i).all (fun l => (List.range n).all (fun k => !(sel l k).getLsbD 6)))
    (fun l k =>
      let j := (n * l + k) / 64 * 64 + (sel l k).toNat % 64
      if (sel l k).getLsbD 7 then none else if j < teamWidth s ty then some j else none)

/-- The elements of the lanes served in ascending order (R165). -/
def servedElems (s : State) (i : Instr) (ty r : Nat) : List Nat :=
  (s.lanesBy i).flatMap (fun l => (List.range (64 / tyWidth ty)).map (fun k => sub (tyWidth ty) k (s.rv r l).val.toNat))

/-- A reduction of elements (R165): the exact sum of values or of numbers, rounded, wrapped or clamped once; the extremes; the bitwise
operations. The extremes of floating-point sets keep R154. -/
def reduceTo (ty op : Nat) (x : Bool) (es : List Nat) : Nat × Nat :=
  let w := tyWidth ty
  let g := sgTy ty
  if 0x0E ≤ ty ∧ ty ≤ 0x10 then
    let ds := es.map (decodeFp ty)
    let nv := if ds.any Fl.isSig then 16 else 0
    if op = 0 then
      let r := roundFp ty x false (sumFl ds).1
      (r.1, (sumFl ds).2 ||| r.2 ||| nv)
    else
      match es.filter (fun e => !(decodeFp ty e).isNan) with
      | [] => if es = [] then (if op = 2 then infPat ty + 2 ^ (w - 1) else infPat ty, 0) else (nanPat ty, nv)
      | e :: rest => (rest.foldl (fun a b => (minMaxFp ty (op == 2) a b).1) e, nv)
  else if op = 0 then resTo x g w (es.map (iv g w)).sum
  else if op = 1 then ((BitVec.ofInt w ((es.map (iv g w)).foldl min (if g then 2 ^ (w - 1) - 1 else 2 ^ w - 1))).toNat, 0)
  else if op = 2 then ((BitVec.ofInt w ((es.map (iv g w)).foldl max (if g then -2 ^ (w - 1) else 0))).toNat, 0)
  else if op = 3 then (((es.map (BitVec.ofNat w)).foldl (· &&& ·) (BitVec.allOnes w)).toNat, 0)
  else if op = 4 then (((es.map (BitVec.ofNat w)).foldl (· ||| ·) 0).toNat, 0)
  else (((es.map (BitVec.ofNat w)).foldl (· ^^^ ·) 0).toNat, 0)

/-- VRED and VSCAN: R165. The lanes served hold the elements; the n-th lane served has n full lanes of elements before it. -/
def laneReduce (s : State) (i : Instr) : Option LaneResult :=
  match i with
  | .vred _ o =>
    let ty := o.ty.toNat
    some { d := o.d.toNat, w := tyWidth ty, clean := cleanIn s i [o.a.toNat]
           el := fun _ _ => reduceTo ty o.c.toNat o.x (servedElems s i ty o.a.toNat) }
  | .vscan _ o =>
    let ty := o.ty.toNat
    let n := 64 / tyWidth ty
    some { d := o.d.toNat, w := tyWidth ty, clean := cleanIn s i [o.a.toNat]
           el := fun l k =>
             let e := n * ((s.lanesBy i).countP (fun m => decide (m < l))) + k
             reduceTo ty (o.c.toNat % 8) o.x
               ((servedElems s i ty o.a.toNat).take (if o.c.getLsbD 3 then e else e + 1)) }
  | _ => none

/-- The status bits of a lane-wise instruction: those of every element of every lane served (R55). -/
def LaneResult.bits (r : LaneResult) (ls : List Nat) : Nat :=
  (ls.flatMap (fun l => (List.range (64 / r.w)).map (fun k => (r.el l k).2))).foldl (· ||| ·) 0

/-- A lane-wise instruction has written its destination in the lanes served, poison cleared, and nothing else of the team's registers but
the flag it signals (R135). -/
def laneWritten (i : Instr) (r : LaneResult) (s t : State) : Prop :=
  keepsTeam s t ∧ advances s t ∧ inFlight i (r.bits (s.lanesBy i)) s t ∧
    { t.tm.regs with v := s.tm.regs.v } = signalled i s ∧
    (∀ l ∈ s.lanesBy i, ∃ x : Word, Tbl.get {} t.tm.regs.v (1024 * r.d + l) = { val := x, pz := false } ∧
      ∀ k, k < 64 / r.w → sub r.w k x.toNat = (r.el l k).1 % 2 ^ r.w) ∧
    (∀ q l, l < 1024 → ¬ (q = r.d ∧ l ∈ s.lanesBy i) →
      Tbl.get ({} : VCell) t.tm.regs.v (1024 * q + l) = Tbl.get {} s.tm.regs.v (1024 * q + l))

/-- A lane-wise instruction of which nothing but the team differs. -/
def laneDone (i : Instr) (r : LaneResult) (s t : State) : Prop := onlyTeam s t ∧ laneWritten i r s t

/-- Hides the permute pattern entries and events of a core. -/
def hidePats (c : Core) : Core := { hideEvents c with tabs := { c.tabs with pats := [] } }

/-- Every instruction of a table of lane-wise results completes with the results the table gives. -/
def laneRule (tbl : State → Instr → Option LaneResult) : Prop :=
  ∀ s i r, tbl s i = some r → canIssue i s = true → r.clean = true → (∀ l ∈ s.lanesBy i, settled s (.v r.d) l) →
    ∃ t, exec i s = .next t ∧ laneDone i r s t

/-- Predicate results: destination, clean sources, and for a lane the outcome and the status bits. -/
structure PredResult where
  d : Nat
  clean : Bool
  out : Nat → Bool × Nat

/-- Comparisons and predicate operations: R141, R149, R155, R167. -/
def predTable (s : State) (i : Instr) : Option PredResult :=
  match i with
  | .vcmp _ o =>
    let w := tyWidth o.ty.toNat
    let g := sgTy o.ty.toNat
    let k := o.c.toNat / 8
    some { d := o.d.toNat, clean := cleanIn s i (o.a.toNat :: vb o)
           out := fun l => (holdsCond (o.c.toNat % 8) (iv g w (sub w k (wa s o l))) (iv g w (sub w k (wb s o l))), 0) }
  | .fcmp _ o =>
    let w := tyWidth o.ty.toNat
    let k := o.c.toNat / 8
    some { d := o.d.toNat, clean := cleanIn s i (o.a.toNat :: vb o)
           out := fun l =>
             let x := decodeFp o.ty.toNat (sub w k (wa s o l))
             let y := decodeFp o.ty.toNat (sub w k (wb s o l))
             let un := x.isNan || y.isNan
             let sig := x.isSig || y.isSig
             let c := o.c.toNat % 8
             (if c = 0 then !un && decide (cmpFl x y = 0)
              else if c = 1 then un || decide (cmpFl x y ≠ 0)
              else if c = 2 then !un && decide (cmpFl x y < 0)
              else if c = 3 then !un && decide (cmpFl x y ≤ 0)
              else if c = 4 then !un && decide (cmpFl x y > 0)
              else if c = 5 then !un && decide (cmpFl x y ≥ 0)
              else if c = 6 then un else !un,
              if (if 2 ≤ c ∧ c ≤ 5 then un else sig) then 16 else 0) }
  | .pand _ o => some { d := o.d.toNat, clean := true, out := fun l => (s.rp o.a.toNat l && s.rp o.b.toNat l, 0) }
  | .por _ o => some { d := o.d.toNat, clean := true, out := fun l => (s.rp o.a.toNat l || s.rp o.b.toNat l, 0) }
  | .pxor _ o => some { d := o.d.toNat, clean := true, out := fun l => (Bool.xor (s.rp o.a.toNat l) (s.rp o.b.toNat l), 0) }
  | .pnot _ o => some { d := o.d.toNat, clean := true, out := fun l => (!s.rp o.a.toNat l, 0) }
  | .scmp _ o => if o.c.getLsbD 3 then some { d := o.d.toNat, clean := s.servedBy i != 0, out := fun _ => (scmpHolds s o, 0) } else none
  | .vote _ o =>
    if o.c.getLsbD 2 then
      let yes := (s.lanesBy i).countP (s.rp o.a.toNat)
      some { d := o.d.toNat, clean := true
             out := fun _ => (if o.c.toNat % 4 = 0 then decide (yes = (s.lanesBy i).length) else decide (0 < yes), 0) }
    else none
  | _ => none

/-- A predicate instruction has written predicate `d` in the lanes served (p0 discards, R43) and nothing else. -/
def predDone (i : Instr) (r : PredResult) (s t : State) : Prop :=
  onlyTeam s t ∧ keepsTeam s t ∧ advances s t ∧
    inFlight i (((s.lanesBy i).map (fun l => (r.out l).2)).foldl (· ||| ·) 0) s t ∧
    { t.tm.regs with p := s.tm.regs.p } = signalled i s ∧
    ∀ q l, l < 1024 → (Tbl.get 0 t.tm.regs.p q).getLsbD l =
      if q = r.d ∧ q ≠ 0 ∧ l ∈ s.lanesBy i then (r.out l).1 else (Tbl.get 0 s.tm.regs.p q).getLsbD l

/-! The control range (06 R111 to R134). -/

/-- The path of a team that goes to `target`, with the spin count of a backward branch (R35): it starts at 1 for a new target, and
returns to 0 at SPINTH. -/
def pathTo (s : State) (target : Word) : TeamPath :=
  let p := { s.tm.path with pc := target }
  if s.ipc.toNat < target.toNat ∨ target = nextPc s.ipc then p
  else
    let n := if s.tm.path.tgt = some target then s.tm.path.spin + 1 else 1
    { p with spin := if s.cr.ctl.spinth ≤ n then 0 else n, tgt := some target }

/-- A backward branch to `target` demotes its path (R35): the count reaches SPINTH and a sibling has not run to its join. -/
def demotes (s : State) (target : Word) : Bool :=
  decide (target.toNat ≤ s.ipc.toNat) && target != nextPc s.ipc && s.tm.path.sibling &&
    decide (s.cr.ctl.spinth ≤ if s.tm.path.tgt = some target then s.tm.path.spin + 1 else 1)

/-- The state after the checks of the targets of JMPI and CALLI (R117, R341): the TLBs hold what the checks of other targets than PC + 8
used. -/
def checkedTargets (s : State) (i : Instr) : State :=
  match i with
  | .jmpi _ o => ((s.lanesBy i).map (fun l => (s.rv o.a.toNat l).val)).foldl (fun s w => s.landTouch w) s
  | .jmpiU _ o | .calli _ o => s.landTouch (s.rs o.a.toNat)
  | _ => s

/-- Goes to a target without a demotion. -/
def goTo (s : State) (target : Word) : Option TeamPath := if demotes s target then none else some (pathTo s target)

/-- The path goes on at PC + 8. -/
def inLine (s : State) : TeamPath := { s.tm.path with pc := nextPc s.ipc }

/-- A path after LOOP or LOOPX with this count (R120). -/
def loopPath (s : State) (count : Word32) (imm : BitVec 19) : Option TeamPath :=
  let last := pcMask (s.ipc + (imm.zeroExtend 64 <<< 3))
  if count = 0 then some { s.tm.path with pc := nextPc last }
  else if s.tm.path.loops.length < 4 then
    some { inLine s with loops := { start := nextPc s.ipc, last := last, count := count } :: s.tm.path.loops }
  else none

/-- The targets of JMPI in the lanes of the path: v[a] where the guard holds, else PC + 8 (R117). -/
def jmpiTargets (s : State) (i : Instr) (o : FmtA) : List (Nat × Word) :=
  (s.lanesBy i).map (fun l => (l, (s.rv o.a.toNat l).val)) ++
    (lanesOf s.nl (s.active &&& ~~~(s.servedBy i))).map (fun l => (l, nextPc s.ipc))

/-- The sets of a JMPI (R117): each distinct target once, in rising order, with the lanes that go there. -/
def targetSets (ts : List (Nat × Word)) (sets : List (Word × LaneBits)) : Prop :=
  sets.Pairwise (fun a b => a.1.toNat < b.1.toNat) ∧ (∀ x ∈ ts, ∃ e ∈ sets, e.1 = x.2) ∧
    ∀ e ∈ sets, (∃ x ∈ ts, x.2 = e.1) ∧ ∀ l, l < 1024 → (e.2.getLsbD l = true ↔ ∃ x ∈ ts, x.1 = l ∧ x.2 = e.1)

/-- JMPI reads no poison and every target other than PC + 8 may be jumped to. -/
def jmpiClean (s : State) (i : Instr) (o : FmtA) : Bool :=
  (s.lanesBy i).all (fun l => !(s.rv o.a.toNat l).pz &&
    ((s.rv o.a.toNat l).val == nextPc s.ipc || s.landAt (s.rv o.a.toNat l).val))

/-- The one target to which a branch sends the whole path (R113, R114, R117), where it goes to one. -/
def branchTo (s : State) (i : Instr) : Option Word :=
  match i with
  | .bra _ o => if s.servedBy i ≠ 0 ∧ s.active &&& ~~~(s.servedBy i) = 0 then some (goalOf o s.ipc) else none
  | .brs _ o => if s.servedBy i ≠ 0 then some (goalOf o s.ipc) else none
  | .brc _ o => if s.servedBy i = s.active then some (goalOf o s.ipc) else none
  | .jmpiU _ o =>
    if s.servedBy i ≠ 0 ∧ (s.rs o.a.toNat = nextPc s.ipc ∨ s.landAt (s.rs o.a.toNat) = true) then some (s.rs o.a.toNat) else none
  | _ => none

/-- Where control instructions without a register result lead, while the path stays whole: R111, R113, R114, R117, R119, R120. -/
def ctlPath (s : State) (i : Instr) : Option TeamPath :=
  match i with
  | .nop .. => if s.servedBy i = 0 then none else some (inLine s)
  | .bra _ o =>
    let rest := s.active &&& ~~~(s.servedBy i)
    if s.servedBy i = 0 then some (inLine s)
    else if rest = 0 then goTo s (goalOf o s.ipc)
    else if goalOf o s.ipc = nextPc s.ipc then some (inLine s) else none
  | .brs _ o => if s.servedBy i ≠ 0 then goTo s (goalOf o s.ipc) else some (inLine s)
  | .brc _ o => if s.servedBy i = s.active then goTo s (goalOf o s.ipc) else some (inLine s)
  | .jmpi _ o =>
    match jmpiTargets s i o with
    | [] => none
    | e :: es => if jmpiClean s i o && es.all (fun x => x.2 == e.2) then goTo s e.2 else none
  | .jmpiU _ o => if s.servedBy i ≠ 0 ∧ (s.rs o.a.toNat = nextPc s.ipc ∨ s.landAt (s.rs o.a.toNat) = true) then goTo s (s.rs o.a.toNat) else none
  | .ret _ o =>
    let w := s.rs o.a.toNat
    if s.servedBy i ≠ 0 ∧ pcMask w = w then some { s.tm.path with pc := w } else none
  | .loop _ o => if s.servedBy i = 0 then none else loopPath s ((s.rs o.a.toNat).truncate 32) o.imm
  | .loopx _ o => if s.servedBy i = 0 then none else loopPath s (BitVec.ofNat 32 (64 * o.d.toNat + o.a.toNat)) o.imm
  | _ => none

/-- An instruction of latency class None has issued and completed with this path, before loop-back, and these registers. -/
def pathDone (i : Instr) (p : TeamPath) (regs : TeamRegs) (s t : State) : Prop :=
  onlyTeam (checkedTargets s i) t ∧ keepsTeam s t ∧ isComplete s t ∧ t.tm.path = loopBack s.ipc p ∧ t.tm.regs = regs

/-- What control instructions write of the team's registers, going on in line: R118, R122, R123, R128, R134. -/
def ctlRegs (s : State) (i : Instr) : Option (TeamPath × TeamRegs) :=
  let r := completed i 0 s
  match i with
  | .land _ o => some (inLine s, { r with sig := o.imm })
  | .sigck _ o => if s.tm.regs.sig = o.imm then some (inLine s, r) else none
  | .yield .. =>
    if s.servedBy i = 0 ∨ s.grpOf.saving then none else some (inLine s, { r with ycnt := 0 })
  | .exit .. => some ({ inLine s with mask := Mask.of (s.tm.path.mask.sect &&& ~~~(s.servedBy i)) }, r)
  | .swr _ o =>
    if s.servedBy i ≠ 0 ∧ o.imm = 0x020 then some (inLine s, { r with tstat := ((s.rs o.a.toNat).truncate 32 &&& 0xFFF) ||| s.tm.regs.edge }) else none
  | _ => none

/-- CALL and CALLI: the target (R119). -/
def linkTarget (s : State) (i : Instr) : Option (Nat × Word) :=
  match i with
  | .call _ o => some (o.d.toNat, pcMask (s.ipc + (o.imm.signExtend 64 <<< 3)))
  | .calli _ o => if s.rs o.a.toNat = nextPc s.ipc ∨ s.landAt (s.rs o.a.toNat) = true then some (o.d.toNat, s.rs o.a.toNat) else none
  | _ => none

/-- The path on which a team goes on after a fault (R121, R125, R382): under action 1 an instruction that had not issued is passed over,
and one that issued and faulted is over. -/
def resumedPath (v : Team) (action : Nat) : TeamPath :=
  if action ≠ 1 then v.path
  else if v.flt.unissued then (if v.flt.code = 0x0A then v.path else { v.path with pc := nextPc v.flt.fpc })
  else if v.flt.atIssue then loopBack v.flt.fpc v.path else v.path

/-- A word put together from fields: the lowest bit of each and what it holds. -/
def laid (fs : List (Nat × Nat)) : Word := BitVec.ofNat 64 (fs.map (fun f => f.2 * 2 ^ f.1)).sum

/-- The system register of each number, field by field (R46, R55, R57, R60 to R62, R349, R371, R374 to R376). -/
def sysLaid (s : State) (n : Nat) : Word :=
  let c := s.cr
  let r := s.tm.regs
  if n = 0x000 then laid [(24, 1), (16, 0), (8, if Config.isM then 2 else 1), (0, Config.stepping.toNat)]
  else if n = 0x001 then laid [(16, s.ck), (8, s.ck / 48), (4, s.ck % 48 / 8), (0, s.ck % 8)]
  else if n = 0x002 then laid [(4, s.slot % 16), (0, s.tm.id.tidx % 16)]
  else if n = 0x010 then (s.die (s.ck / 48)).clk.cyc
  else if n = 0x011 then (s.die (s.ck / 48)).clk.cycn
  else if n = 0x020 then laid [(0, r.tstat.toNat)]
  else if n = 0x021 then laid [(0, r.sig.toNat)]
  else if n = 0x022 then laid [(0, r.ycnt)]
  else if n = 0x023 then laid [(48, s.tm.tops.1), (32, s.tm.tops.2), (4, (r.tstat.getLsbD 11).toNat), (0, r.regions.length)]
  else if n = 0x030 then laid [(0, c.ctl.spinth)]
  else if n = 0x031 then c.mat.aelog
  else if n = 0x032 then laid ((List.range 8).flatMap (fun k =>
    let w := Tbl.get ({} : WSlot) c.mat.slots k; [(4 * k + 3, w.load.toNat), (4 * k + 2, w.valid.toNat), (4 * k, w.spar % 4)]))
  else if 0x040 ≤ n ∧ n < 0x060 then
    let b := Tbl.get ({} : Bkpt) c.tabs.bk (n / 4 - 0x10)
    if n % 4 = 0 then b.pc else if n % 4 = 1 then b.sel else if n % 4 = 2 then b.val else b.ctl
  else if n = 0x060 then laid [(0, c.ctl.errwin)]
  else if 0x061 ≤ n ∧ n < 0x070 then
    let e := Tbl.get ({} : ErrCnt) c.ctl.errs (n - 0x061); laid [(48, e.ce), (40, e.ue % 256), (39, e.last.toNat)]
  else if 0x080 ≤ n ∧ n < 0x0A0 then
    if n % 2 = 0 then Tbl.get 0 c.ctl.pcsel (n / 2 - 0x40) else Tbl.get 0 c.ctl.pcval (n / 2 - 0x40)
  else if n = 0x0A0 then laid [(63, c.ctl.ssen.toNat), (0, c.ctl.ssper % 2 ^ 20)]
  else if 0x0A8 ≤ n ∧ n < 0x0C0 then
    let x := Tbl.get ({} : Sample) c.ctl.samples (n / 3 - 0x38)
    if n % 3 = 0 then x.spc else if n % 3 = 1 then x.sbl else x.sinf
  else 0

/-- Results of variable latency, or of a sweep, that go to a scalar register: VOTE, and WAITF when its condition holds. -/
def ctlScalar (s : State) (i : Instr) : Option (Nat × Word) :=
  match i with
  | .vote _ o =>
    let yes := (s.lanesBy i).filter (s.rp o.a.toNat)
    let k := (s.rs o.b.toNat).toNat % 16
    if o.c.getLsbD 2 then none
    else if o.c.toNat = 0 then some (o.d.toNat, if yes.length = (s.lanesBy i).length then 1 else 0)
    else if o.c.toNat = 1 then some (o.d.toNat, if yes = [] then 0 else 1)
    else if o.c.toNat = 2 then some (o.d.toNat, BitVec.ofNat 64 yes.length)
    else some (o.d.toNat, (maskOf yes).extractLsb' (64 * k) 64)
  | .waitf _ o => if s.servedBy i ≠ 0 ∧ (s.tm.flag o.obj.toNat).count + (if flagOf i = o.obj.toNat then 1 else 0) ≤ o.count.toNat
      then some (o.d.toNat, 0) else none
  | _ => none

/-- The team-uniform instructions but for those whose own rule says what happens without a lane (R94). -/
def teamUniform : Instr → Bool
  | .nop .. | .jmpiU .. | .call .. | .calli .. | .ret .. | .loop .. | .loopx .. | .yield .. | .trap .. | .eret .. | .halt .. | .brk ..
  | .rgne .. | .rgnl .. | .waitf .. | .srd .. | .swr .. | .sadd .. | .ssub .. | .saddi .. | .smul .. | .smulh .. | .sdiv .. | .srem ..
  | .sand .. | .sor .. | .sxor .. | .sandi .. | .sori .. | .sshl .. | .sshr .. | .ssar .. | .smin .. | .smax .. | .scmp .. | .ssel ..
  | .smov .. | .sli .. | .slih .. | .sclz .. | .spop .. | .sbfx .. | .sbfi .. | .slea .. | .sv2s .. | .ptld .. | .ldtld .. | .cheap ..
  | .stt .. | .fence .. | .cinv .. | .cpy .. | .cpyt .. | .cpyg .. | .coll .. | .cbar .. | .gbar .. | .dcset .. | .dcadd ..
  | .dcwait .. | .time .. | .cyc .. | .enq .. | .deq .. | .deqHdr .. | .deqArg .. | .qcwRd .. | .qcwRst .. => true
  | _ => false

/-- No fault that a team-uniform instruction raises whatever its guard holds (R59, R103, R134, R286): privilege, a register that does not
exist, a divergent path, a barrier that the group does not have, a range guard without a free entry. -/
def deadClean (s : State) : Instr → Prop
  | .eret .. => s.tm.id.prv = true
  | .srd _ o => sysPriv o.imm.toNat = true → s.tm.id.prv = true
  | .swr _ o => o.imm.toNat = 0x020 ∨ s.tm.id.prv = true
  | .cpy _ o | .cpyt _ o | .cpyg _ o =>
    s.tm.path.stack = [] ∧ (o.c.getLsbD 5 = true ∨ o.c.toNat % 32 < s.grpOf.nbar) ∧ s.freeGuard s.ck ≠ none
  | .coll .. => s.tm.path.stack = []
  | _ => True

/-- The handle of the next record of the issuing core's die: its slot and the slot's next generation (R313). -/
def nextHandle (s : State) : Nat :=
  let q := (s.die (dieOfCore s.ck)).fq
  q.tail + 1024 * nextGen (Tbl.get 0 q.gens q.tail)

/-- The record of a fault of the issuing team at its PC, in the next slot of the fault queue (R377, R378). -/
def teamRecordWord (i : Instr) (code : Nat) (pend : Bool) (addr : Word) (detail : BitVec 128) (rpm : LaneBits) (s : State) : BitVec 512 :=
  let r : RecHead :=
    { pc := s.ipc, gref := s.tm.id.gref, rtop := s.tm.tops.1, rnext := s.tm.tops.2, code := code, pend := pend
      tenant := s.tm.id.tenant, core := s.ck, tslot := s.slot, nrpm := countLanes s.nl rpm
      body := (wordOf i).toNat * 2 ^ 192 + addr.toNat * 2 ^ 128 + detail.toNat }
  r.word ||| BitVec.ofNat 512 (nextHandle s * 2 ^ 352)

/-- The instructions that set the PC themselves: where one faults, its place in a loop is settled by the resolution (log 13). -/
def setsPc : Instr → Bool
  | .bra .. | .brs .. | .brc .. | .jmpi .. | .jmpiU .. | .call .. | .calli .. | .ret .. | .loop .. | .loopx .. => true
  | _ => false

/-- The path of a team behind an instruction that faults (R121, R381). -/
def pathBehind (i : Instr) (s : State) : TeamPath := if setsPc i then inLine s else loopBack s.ipc (inLine s)

/-- The issuing team has taken a fault at issue with this code and body, and these lanes not committed (R377, R378, R381): it waits
for the resolution of the record just written in slot TAIL of the fault queue of its die. -/
def faultTaken (i : Instr) (code : Nat) (pend counted : Bool) (addr : Word) (detail : BitVec 128) (rpm : LaneBits) (s t : State) : Prop :=
  let d := dieOfCore s.ck
  let q := (s.die d).fq
  let handle := nextHandle s
  let w := teamRecordWord i code pend addr detail rpm s
  let u := (t.die d).fq
  t.tm.path = pathBehind i s ∧ t.tm.regs.rpm = rpm ∧
    (∀ j, j < 64 → t.mem.byte (q.base + 64 * q.tail + j) = w.extractLsb' (8 * j) 8) ∧
    (∀ a, (a < q.base + 64 * q.tail ∨ q.base + 64 * q.tail + 64 ≤ a) → t.mem.byte a = s.mem.byte a) ∧
    u.tail = (q.tail + 1) % 1024 ∧ u.unres = q.unres + counted.toNat ∧
    { t with mem := s.mem, cores := s.cores, dies := s.dies, io := s.io } = s ∧ { t.io with msix := s.io.msix } = s.io ∧
    (∀ k, k ≠ s.ck → t.core k = s.core k) ∧ (pend = true → u.recs.any (fun x => x.pend && x.handle.toNat == handle % 2 ^ 32) = true)

/-- The team waits for the resolution of its record (R26, R381). -/
def stopsTeam (code : Nat) (s t : State) : Prop :=
  t.tm.st = 2 ∧ t.tm.wait = none ∧ t.tm.flt.pf = true ∧ t.tm.flt.fpc = s.ipc ∧ t.tm.flt.code = code ∧ t.tm.flt.replay = false ∧
    t.tm.flt.unissued = false ∧ { t.tm.regs with rpm := 0, tstat := 0, flags := [] } = { s.tm.regs with rpm := 0, tstat := 0, flags := [] } ∧
    t.tm.regs.tstat = s.tm.regs.tstat

/-- The fault queue of the issuing core's die takes a record of one slot, in memory (R313). -/
def queueOpen (s : State) : Prop :=
  let q := (s.die (dieOfCore s.ck)).fq
  s.ck < 192 ∧ q.room 1 = true ∧ q.tail < 1024 ∧ (regionOf s.ddr (q.base + 64 * q.tail)).plain = true ∧ Tbl.get 0 q.gens q.tail < 2 ^ 22

/-- The record that ERET names, if its operands are in order and its team is there to resume (R125). -/
def eretTarget (s : State) (o : FmtA) : Option (RecInfo × Nat) :=
  let a := s.rs o.a.toNat
  let b := s.rs o.b.toNat
  if a.toNat / 2 ^ 34 = 0 ∧ b.toNat < 4 then
    ((s.die (a.toNat / 2 ^ 32)).fq.recs.find? (fun r => r.pend && r.handle.toNat == a.toNat % 2 ^ 32)).map (fun r => (r, b.toNat))
  else none

/-- The byte of a record's first slot that holds PEND (R377), in the ring of die `d`. -/
def recordByte (s : State) (d : Nat) (r : RecInfo) : Nat := (s.die d).fq.base + 64 * (r.handle.toNat % 1024) + 37

/-- PEND of a record is cleared in memory, where nothing else changes, and in what the die keeps of it (R384). -/
def pendCleared (d : Nat) (r : RecInfo) (s t : State) : Prop :=
  let pa := recordByte s d r
  t.mem.byte pa = s.mem.byte pa &&& 0xEF ∧ (∀ a, a ≠ pa → t.mem.byte a = s.mem.byte a) ∧
    (t.die d).fq.recs.any (fun x => x.pend && x.handle == r.handle) = false

/-- What resolving record `r` of die `d` with action `b` does (R125, R308, R382 to R385) beside the resumption of a resident team: action 2
halts the team, ends a gatherer, gives up a copy or a drain; action 0 resumes a gatherer at its instruction, a copy and a drain, action 1
a gatherer behind it. The record of a team that is not there, being saved, keeps its action for the restore. -/
def recordActs (d : Nat) (r : RecInfo) (b handle : Nat) (s t : State) : Prop :=
  (b = 2 → r.agent = 0 → let v := s.team r.core r.unit
    v.id.gref = r.gref → v.st ≠ 0 → v.flt.pf = true →
    (t.team r.core r.unit).st = 4 ∧ (t.team r.core r.unit).flt.pf = false ∧ (t.task v.id.tag).err = true) ∧
  (r.agent = 0 → (let v := s.team r.core r.unit; v.id.gref ≠ r.gref ∨ v.st = 0 ∨ v.flt.pf = false) → pendCleared d r s t ∧
    { t with mem := s.mem, cores := s.cores, dies := s.dies } = s ∧
    ∃ c, (t.die d).fq.acts = (handle, r.gref, c) :: (s.die d).fq.acts ∧ c % 4 = b) ∧
  (r.agent = 1 → let g := s.gath r.core r.unit
    g.halt = true → g.handle.toNat = handle → pendCleared d r s t ∧
    let u := t.gath r.core r.unit
    u.halt = false ∧ (b = 2 → u.ended = true) ∧ (b = 0 → u.pc = g.pc ∧ u.ended = g.ended) ∧
      (b = 1 → u.pc = (loopBack g.pc { pc := nextPc g.pc, loops := g.loops }).pc ∧ u.ended = g.ended)) ∧
  (r.agent = 2 → b = 0 → ∀ c ∈ (s.core r.core).copies, c.id = r.unit → pendCleared d r s t ∧
    { c with pend := false, handle := 0 } ∈ (t.core r.core).copies) ∧
  (r.agent = 2 → b = 2 → (∀ c ∈ (t.core r.core).copies, c.id ≠ r.unit) ∧
    ∀ c, (s.core r.core).copies.find? (fun c => c.id == r.unit) = some c → let v := s.team r.core c.iss.slot
      v.id.gref = c.iss.gref → v.st = 1 ∨ v.st = 2 → (t.team r.core c.iss.slot).st = 4) ∧
  (r.agent = 3 → ∀ x, (s.core r.core).mat.drain = some x →
    (b = 0 → pendCleared d r s t ∧ (t.core r.core).mat.drain = some { x with pend := false }) ∧
    (b = 2 → (t.core r.core).mat.drain = none))

/-! Barriers, counters and clocks (16 R352 to R373), queues (13 R297 to R312). -/

/-- Scalar results of reads: SV2S, TIME, CYC, DEQ.hdr, DEQ.arg, QCW.rd (R142, R303, R311, R373). -/
def scalarReads (s : State) (i : Instr) : Option (Nat × Word × Nat) :=
  match i with
  | .sv2s _ o =>
    let ty := o.ty.toNat
    let n := 64 / tyWidth ty
    let e := (s.rs o.b.toNat).toNat
    if teamWidth s ty ≤ e then some (o.d.toNat, 0, 0)
    else if (s.rvNow o.a.toNat (e / n)).pz then none
    else
      let x := BitVec.ofNat (tyWidth ty) (teamElem s s.cyc ty o.a.toNat e)
      some (o.d.toNat, if sgTy ty then x.signExtend 64 else x.zeroExtend 64, 0)
  | .time _ o => some (o.d.toNat, BitVec.ofNat 64 s.time, 0)
  | .cyc _ o =>
    let clk := (s.die (dieOfCore s.ck)).clk
    some (o.d.toNat, if o.c = 0 then clk.cyc else clk.cycn, 0)
  | .deqHdr _ o => some (o.d.toNat, s.grpOf.hdr.extractLsb' (64 * o.a.toNat) 64, 0)
  | .deqArg _ o => some (o.d.toNat, (s.grpOf.hdr.extractLsb' 64 60).zeroExtend 64, 0)
  | .qcwRd _ o => if qDlog (s.aq o.c.toNat) = 0 then none else some (o.d.toNat, s.aq o.c.toNat, 0)
  | _ => none

/-- Hides barriers and events of a core. -/
def hideBars (c : Core) : Core := { hideEvents c with tabs := { c.tabs with bars := [] } }

/-- Hides cached lines and events of a core. -/
def hideCache (c : Core) : Core := { hideEvents c with tabs := { c.tabs with l1 := [] } }

/-- Hides groups (with their access queues) and events of a core. -/
def hideQueues (c : Core) : Core := { hideEvents c with groups := [] }

/-- Of the cores nothing differs but the issuing team and what `hide` erases of its core. -/
def sameCores (hide : Core → Core) (s t : State) : Prop :=
  (∀ k, k ≠ s.ck → t.core k = s.core k) ∧ { hide t.cr with teams := [] } = { hide s.cr with teams := [] } ∧
    ∀ j, j ≠ s.slot → t.cr.team j = s.cr.team j

/-- Scalar register `d` takes `w` and no other register changes but the flag's. -/
def putsScalar (i : Instr) (d : Nat) (w : Word) (s t : State) : Prop :=
  { t.tm.regs with s := s.tm.regs.s } = signalled i s ∧
    ∀ r, Tbl.get 0 t.tm.regs.s r = if r = d ∧ d ≠ 0 then w else Tbl.get 0 s.tm.regs.s r

/-- The path goes on in line with the spin count back at zero (R35). -/
def advancesFresh (s t : State) : Prop := t.tm.path = loopBack s.ipc { inLine s with spin := 0 }

/-- The path goes on in line, with the spin count back at zero if it was of use (R35). -/
def advancesIf (acted : Prop) (s t : State) : Prop := (acted → advancesFresh s t) ∧ (¬ acted → advances s t)

/-- A barrier after an arrival (R353). Whether its phase has ended is tested after the changes of the cycle. -/
def afterArrival (b : Bar) (key n drops : Nat) : Bar :=
  { b with count := n, arr := b.arr + 1, arrm := insertAsc key b.arrm, drop := b.drop + drops }

/-- A phase of a barrier has ended (R353): every arrival made, every byte landed. -/
def phaseOver (b : Bar) : Prop := b.stat = 0 ∧ b.count ≠ 0 ∧ b.arr = b.count ∧ b.exp = 0

/-- A barrier at the start of its next phase (R353). -/
def nextPhase (b : Bar) : Bar :=
  { b with phase := !b.phase, arr := 0, arrm := [], count := b.count - b.drop, drop := 0, last := b.count }

/-- The dispatcher of die `d` is at work (R13, R304, R322, R427). -/
def dispatches (s : State) (d : Nat) : Prop := (s.die d).frozen = false ∧ s.ctrl.power = 0 ∧ (s.die d).clk.relock = none

/-- What a core cycle takes of the time owed to it (R12, R370): one cycle, more or less by the rate at which reference time is slewed. -/
def cyclePrice (s : State) : Nat := (10 * (1000000000 + s.ctrl.ptp.rate)).toNat

/-- Die `d` stands at a core-cycle boundary (R12, R13, R370): reference time has brought the end of the last cycle, or a relock is just
over; the clock does not stand. -/
def atEdge (s : State) (d : Nat) : Prop :=
  (s.die d).clk.relock = none ∧ ((s.die d).clk.counted = true ∨ cyclePrice s ≤ (s.die d).clk.owed)

/-- A cycle of the core clock of die `d` may begin (R425): no change of step is due. -/
def cyclePasses (s : State) (d : Nat) : Prop := d < 4 ∧ atEdge s d ∧ (s.die d).clk.next = none

/-- The clock of a die past a boundary (R371, R372): CYC counts the cycle that ends, CYCN its length in cycles of the highest step; a cycle
that ended at a relock is counted there. -/
def clockAfter (s : State) (c : Clock) : Clock :=
  let n := c.rem + ([2560, 1920, 1536] : List Nat).getD c.step 1280
  if c.counted then { c with counted := false }
  else { c with cyc := c.cyc + 1, cycn := c.cycn + BitVec.ofNat 64 (n / 5), rem := n % 5, owed := c.owed - cyclePrice s }

/-- An arrival of `key` with count `cnt` raises no barrier fault (R353), and the count it takes part in. -/
def arrivalCount (b : Bar) (key cnt : Nat) : Option Nat :=
  let n := if b.count = 0 then cnt else b.count
  if b.stat = 0 ∧ key ∉ b.arrm ∧ n ≠ 0 ∧ (cnt = 0 ∨ cnt = n) ∧ b.arr ≠ n then some n else none

/-- The member devices of grid barrier `k`, in rising order (R363). -/
def gridMembers (s : State) (k : Nat) : List Nat := (List.range 256).filter (fun d => (Tbl.get {} s.io.grids k).map.getLsbD d)

/-- A message about grid barrier `k` goes to these devices, each through the lowest port that leads to it, on VC 5 (R412, R414, R417). -/
def gridSays (k : Nat) (devs : List Nat) (what : List Nat) (s t : State) : Prop :=
  ∀ n, Tbl.get ({} : Port) t.ports n = { Tbl.get ({} : Port) s.ports n with
    queued := (Tbl.get ({} : Port) s.ports n).queued ++
      ((devs.filter (fun d => (List.range 16).find? (fun m => (Tbl.get 0 s.io.routes d).getLsbD m) == some n)).map (fun d =>
        { vc := 5, dev := d, tenant := (Tbl.get {} s.io.grids k).tenant, what := k :: what })) }

/-- Nothing changes but the team, its core's recorder, and barrier word `n` of the core. -/
def barOnly (n : Nat) (b : Bar) (s t : State) : Prop :=
  onlyCore hideBars s t ∧ t.nbar s.ck n = b ∧ ∀ m, m ≠ n → t.nbar s.ck m = s.nbar s.ck m

/-- The team waits at its instruction (R26, R100). -/
def waitsFor (i : Instr) (kind : WaitKind) (d t : Nat) (arrd : Bool) (s u : State) : Prop :=
  inFlight i 0 s u ∧ u.tm.regs = signalled i s ∧ u.tm.st = 2 ∧ u.tm.arrd = arrd ∧ u.tm.path.pc = s.tm.path.pc ∧
    ∃ w, u.tm.wait = some w ∧ w.kind = kind ∧ w.dest = d ∧ w.pc = s.ipc ∧
      w.deadline = if t = 15 then none else some (s.time + 2 ^ (t + 8))

/-- The completion of an access queue's element reads: the cell of lane `l` in register `d + r`, or none (R310). -/
def popCell (s : State) (q l : Nat) (ls : List Nat) (r : Nat) : VCell :=
  let w := s.aq q
  let bs := ((s.aqBytes w (qHead w + ls.idxOf l)).drop (8 * r)).take 8
  let x := s.seeBytes s.ck 1 bs
  { val := BitVec.ofNat 64 (leNat x.1), pz := x.2 }

/-! Lane accesses (12 R274 to R284). -/

/-- Hides what every access may leave in its core besides its result: TLB and L1 contents, counters (R240, R341, R374). -/
def hideAccess (c : Core) : Core := { hideEvents c with tabs := { c.tabs with tlb := [], l1 := [] } }

/-- The frame of an access that stores nothing: TLBs, the L1 and counters of the core; ATS entries and requests that leave. -/
def accessFrame (s t : State) : Prop :=
  { t with cores := s.cores, dies := s.dies, io := s.io, ports := s.ports } = s ∧ sameCores hideAccess s t ∧
    (∀ d, { t.die d with tlb := [] } = { s.die d with tlb := [] }) ∧ { t.io with ats := [], fnErrs := [], hostReqs := [] } = { s.io with ats := [], fnErrs := [], hostReqs := [] }

/-- The frame of an access that stores: besides the above the bytes of memory and the writes to the host window. -/
def storeFrame (s t : State) : Prop :=
  { t with mem := s.mem, cores := s.cores, dies := s.dies, io := s.io, ports := s.ports } = s ∧ sameCores hideAccess s t ∧
    (∀ d, { t.die d with tlb := [] } = { s.die d with tlb := [] }) ∧
    { t.io with ats := [], fnErrs := [], hostReqs := [], hostOut := [] } = { s.io with ats := [], fnErrs := [], hostReqs := [], hostOut := [] } ∧ t.mem.bad = s.mem.bad

/-- The address of a lane (R274). -/
def laneEa (s : State) (o : FmtM) (l : Nat) : Nat := ((s.rv o.a.toNat l).val + s.rs o.b.toNat).toNat

/-- What the checks of a lane's load answer (R275, R277); `acq`: LDA. -/
def loadCheck (s : State) (o : FmtM) (acq : Bool) (l : Nat) : Except AccErr Checked :=
  let fp := decide (0x0E ≤ o.ty.toNat ∧ o.ty.toNat ≤ 0x10)
  s.checkLane o.space (laneEa s o l) (tyWidth o.ty.toNat / 8)
    { natural := acq, scaledTy := if fp then some o.ty.toNat else none, scaledBad := !fp }

/-- The element of a scaled page, decoded: value, status bits, and whether its tile is uncorrectable (R277). -/
def tileRead (s : State) (ty : Nat) (e : ElemAt) : Nat × Nat × Bool :=
  let t := s.tileAt e
  let r := tileLoad ty e.code t.1 t.2.1 (e.n / 16) (e.n % 16)
  (r.1, r.2, t.2.2)

/-- The elements that a lane's load of a scaled page reads. -/
def loadElems (s : State) (ea : Nat) (c : Checked) : List ElemAt :=
  if c.scaled = 0 then [] else (match scaledElem s c.scaled (ea % 65536) with | .ok e => [e] | .error _ => [])

/-- The register cell of a checked load (R276, R277). -/
def loadCell (s : State) (ty ea : Nat) (c : Checked) : VCell :=
  if c.scaled = 0 then
    let x := s.seeBytes s.ck c.kind c.bytes
    { val := BitVec.ofNat 64 (leNat x.1), pz := x.2 }
  else
    match loadElems s ea c with
    | e :: _ => { val := BitVec.ofNat 64 ((tileRead s ty e).1 % 2 ^ tyWidth ty), pz := (tileRead s ty e).2.2 }
    | [] => {}

/-- Bytes are free to be read: not behind the range guard, and not of an accumulator tile, whose reads promote it. -/
def quiet (s : State) (bs : List PByte) : Prop :=
  ∀ b ∈ bs, s.guarded b = false ∧ (match s.region b with | .accum .. => False | _ => True)
def readable (s : State) (c : Checked) : Prop := quiet s c.bytes

/-- A byte of memory as it reads at its place, past every cache (R240, R330). -/
def plainByte (s : State) (a : Nat) : Byte := (s.homeByte { pa := a }).1

/-- Memory after an instruction reads as `f` says, and what is no memory keeps what it held. -/
def memReads (f : Nat → Byte) (s t : State) : Prop :=
  ∀ a, if (regionOf s.ddr a).plain then plainByte t a = f a else t.mem.byte a = s.mem.byte a

/-- No access of the team is held behind the range guard (R246), so an access of it is performed at its issue (R256). -/
def unheld (s : State) : Prop := ∀ f ∈ s.tm.fly, f.held = []

/-- A lane reads the same wherever it looks: it is the first lane served, its line is let go neither by the lanes before nor for them, or
the L1 holds no stale copy. -/
def fresh (s : State) (i : Instr) (hint l : Nat) (c : Checked) : Prop :=
  (s.lanesBy i).head? = some l ∨ (hint = 1 ∨ hint = 3) ∨ (hint = 0 ∧ s.cr.tabs.l1.length + 2 * (s.lanesBy i).length ≤ l1Lines) ∨
    ∀ b ∈ c.bytes, s.seeByte s.ck c.kind b = s.seeByte s.ck 0 b

/-- Vector register `d` of these lanes takes cells, and no other vector register changes. -/
def putsLanes (d : Nat) (ls : List Nat) (f : Nat → VCell → Prop) (s t : State) : Prop :=
  (∀ l ∈ ls, f l (Tbl.get {} t.tm.regs.v (1024 * d + l))) ∧
    ∀ q l, l < 1024 → ¬ (q = d ∧ l ∈ ls) → Tbl.get ({} : VCell) t.tm.regs.v (1024 * q + l) = Tbl.get {} s.tm.regs.v (1024 * q + l)

/-- What the checks of a lane's store answer (R275), and the pairs of bytes it writes. -/
def storeCheck (s : State) (o : FmtM) (rel : Bool) (l : Nat) : Except AccErr Checked :=
  s.checkLane o.space (laneEa s o l) (tyWidth o.ty.toNat / 8) { rd := false, wr := true, natural := rel }
def storePairs (s : State) (o : FmtM) (rel : Bool) (l : Nat) : List (PByte × Byte) :=
  match storeCheck s o rel l with
  | .ok c => c.bytes.zip (leBytes (tyWidth o.ty.toNat / 8) (s.rv o.d.toNat l).val.toNat)
  | .error _ => []

/-- The byte that a store leaves at physical address `a` of this device: of the highest lane that writes it (R276). -/
def storedAt (ps : List (PByte × Byte)) (a : Nat) : Option Byte :=
  ((ps.filter (fun p => p.1.dev.isNone && p.1.pa == a)).getLast?).map Prod.snd

/-- A byte that a store may be followed to: memory, the host window, another device. -/
def storable (s : State) (b : PByte) : Bool :=
  !s.guarded b && (b.dev.isSome || (regionOf s.ddr b.pa).plain || (match regionOf s.ddr b.pa with | .host _ => true | _ => false))

/-- The new value of an atomic (R280) on values of `w` bits and the status bits; `y`: the new value of `.cas`. -/
def atomTo (op ty old x y : Nat) : Nat × Nat :=
  let w := tyWidth ty
  let g := sgTy ty
  if ty = 0x10 ∧ op = 0 then
    let ds := [decodeFp ty old, decodeFp ty x]
    let r := roundFp ty false false (sumFl ds).1
    (r.1, (sumFl ds).2 ||| r.2 ||| (if ds.any Fl.isSig then 16 else 0))
  else if ty = 0x10 ∧ op = 1 then minMaxFp ty false old x
  else if ty = 0x10 ∧ op = 2 then minMaxFp ty true old x
  else if op = 0 then ((old + x) % 2 ^ w, 0)
  else if op = 1 then (if iv g w x < iv g w old then x else old, 0)
  else if op = 2 then (if iv g w old < iv g w x then x else old, 0)
  else if op = 3 then (old &&& x, 0)
  else if op = 4 then (old ||| x, 0)
  else if op = 5 then (old ^^^ x, 0)
  else if op = 6 then (x, 0)
  else (if old = x then y else old, 0)

/-- The checks of a lane's atomic, its operands (R280) and what it does to a memory `m`: the memory, the old value, the bits. -/
def atomCheck (s : State) (o : FmtM) (l : Nat) : Except AccErr Checked :=
  s.checkLane o.space (s.rv o.a.toNat l).val.toNat (tyWidth o.ty.toNat / 8) { wr := true, atom := true, natural := true }
def atomStep (s : State) (o : FmtM) (m : Nat → Byte) (l : Nat) : (Nat → Byte) × Nat × Nat :=
  let ty := o.ty.toNat
  let w := tyWidth ty
  let v := (s.rv o.d.toNat l).val.toNat
  let y := if w = 32 then v / 2 ^ 32 else (s.rv (o.d.toNat + 1) l).val.toNat
  match atomCheck s o l with
  | .error _ => (m, 0, 0)
  | .ok c =>
    let pas := c.bytes.map (·.pa)
    let old := leNat (pas.map m)
    let r := atomTo o.b.toNat ty old (v % 2 ^ w) y
    (fun a => if a ∈ pas then BitVec.ofNat 8 (r.1 / 256 ^ pas.idxOf a) else m a, old, r.2)

/-- The lanes of an atomic one after the other (R281): the memory, the old value of each lane, the status bits. -/
def atomRun (s : State) (o : FmtM) : List Nat → (Nat → Byte) → (Nat → Byte) × List (Nat × Nat) × Nat
  | [], m => (m, [], 0)
  | l :: ls, m =>
    let r := atomStep s o m l
    let q := atomRun s o ls r.1
    (q.1, (l, r.2.1) :: q.2.1, r.2.2 ||| q.2.2)

/-- The page of LDT and LDTT after its checks (R278). -/
def ldtPage (s : State) (o : FmtM) (leaf : Nat) : Prop :=
  s.translate s.ck s.tm.id.tenant (s.rs o.b.toNat).toNat true false false = .ok leaf ∧ pteFmt leaf ≠ 0 ∧ (s.rs o.b.toNat).toNat % 65536 = 0

/-- Row and column of element `k` of a lane's LDT, or of LDTT's transpose (R278). -/
def ldtAt (s : State) (o : FmtM) (tr : Bool) (l k : Nat) : Nat × Nat :=
  let v := (s.rv o.a.toNat l).val.toNat
  if tr then (v / 2 ^ 32 + k, v % 2 ^ 32) else (v % 2 ^ 32, v / 2 ^ 32 + k)

/-- The coordinates of every lane are in order: c a multiple of S and every element within the page's matrix (R278). -/
def ldtOk (s : State) (i : Instr) (o : FmtM) (tr : Bool) (leaf : Nat) : Prop :=
  ∀ l ∈ s.lanesBy i, (s.rv o.a.toNat l).val.toNat / 2 ^ 32 % (64 / tyWidth o.ty.toNat) = 0 ∧
    ∀ k, k < 64 / tyWidth o.ty.toNat → (ldtAt s o tr l k).1 < (pageShape leaf).1 ∧ (ldtAt s o tr l k).2 < (pageShape leaf).2

/-- What LDT reads for element `k` of a lane. -/
def ldtRead (s : State) (o : FmtM) (tr : Bool) (leaf l k : Nat) : Nat × Nat × Bool :=
  let a := ldtAt s o tr l k
  tileRead s o.ty.toNat (matElem s leaf a.1 a.2)

/-- When STT reads element `e` of the 256 that begin at element `eb` (R28): with the section that holds it, of those that hold them. -/
def sttCyc (s : State) (ty eb e : Nat) : Nat :=
  let n := 32 * (64 / tyWidth ty)
  s.cyc + ((eb + e) / n - eb / n)

/-- The exact value of an element of a floating-point type as a pattern of FP32 (R279). -/
def widen (ty x : Nat) : Nat := toF32 ty x

/-! Cursors (08 R168 to R199). -/


/-- Hides what a walk may leave in its core (R177, R341). -/
def hideWalk (c : Core) : Core := { hideEvents c with tabs := { c.tabs with tlb := [], meta_ := [] } }

/-- The frame of a walk: besides what it leaves in its core, TLBs, ATS entries and requests that leave. -/
def walkFrame (s t : State) : Prop :=
  { t with cores := s.cores, dies := s.dies, io := s.io, ports := s.ports } = s ∧ sameCores hideWalk s t ∧
    (∀ d, { t.die d with tlb := [] } = { s.die d with tlb := [] }) ∧
    { t.io with ats := [], fnErrs := [], hostReqs := [] } = { s.io with ats := [], fnErrs := [], hostReqs := [] }

/-- The low 32 bits of operand B of CINIT and CSEEK in a lane (R182). -/
def lowB (s : State) (o : FmtA) (l : Nat) : Nat := wb s o l % 2 ^ 32

/-- Cursors whose poison an instruction consumes, vector registers likewise, and the walk of a lane (R185 to R189). -/
def walkOf (s : State) (i : Instr) : Option (List Nat × List Nat × (Nat → WalkM LaneRes)) :=
  match i with
  | .cinit _ o =>
    let e := (s.rs o.a.toNat).toNat
    if s.ldtHeld e then some ([], vb o, fun l => do
      let c ← s.descend e (lowB s o l)
      pure { curs := [(o.d.toNat, c)] })
    else none
  | .cinitA _ o =>
    let e := (s.rs o.a.toNat).toNat
    let d := s.desc e
    if s.ldtHeld e ∧ dKind d = 1 ∧ (Tbl.get {} s.cr.tabs.ldt e).hv = true then some ([], vb o, fun l =>
      if lowB s o l < min (dNfib d) (2 ^ 23) then
        pure { curs := [(o.d.toNat, { ldti := BitVec.ofNat 8 e, kind := 1, valid := true, app := true
                                      pos := BitVec.ofNat 32 (512 * lowB s o l), ub := BitVec.ofNat 32 (dExt d) })] }
      else throw { code := 0x19 })
    else none
  | .cdesc _ o =>
    let e := (s.rs o.b.toNat).toNat
    if s.ldtHeld e then some ([o.a.toNat], [], fun l => do
      let p := s.rc o.a.toNat l
      walkErr (s.liveErr l [p])
      let c ← if p.done then pure { ldti := BitVec.ofNat 8 e, kind := BitVec.ofNat 3 (dKind (s.desc e)), valid := true, done := true
                                    coord := 0xFFFF_FFFF }
              else s.descend e p.pos.toNat
      pure { curs := [(o.d.toNat, c)] })
    else none
  | .cnext _ o => some ([o.d.toNat], [], fun l => do
      let c := s.rc o.d.toNat l
      walkErr (s.moveErr l false [c])
      let c' ← if c.done then pure c else s.stepCursor c
      pure { curs := [(o.d.toNat, c')], preds := [(o.c.toNat, !c'.done)] })
  | .cseek _ o => some ([o.d.toNat], vb o, fun l => do
      let c := s.rc o.d.toNat l
      walkErr (s.moveErr l false [c])
      let r ← if c.kind = 5 then s.seekBlock c (lowB s o l) else (some <$> s.seekTo c (lowB s o l))
      match r with
      | some c' => pure { curs := [(o.d.toNat, c')], preds := [(o.c.toNat % 8, !c'.done && c'.coord.toNat == lowB s o l)] }
      | none => if o.c.getLsbD 3 then throw { code := 0x1A } else pure { preds := [(o.c.toNat % 8, false)], rpm := true })
  | .ccoit _ o =>
    let ra := o.a.toNat
    let rb := o.b.toNat
    let p := o.d.toNat
    some ([ra, rb], [], fun l => do
      let a := s.rc ra l
      let b := s.rc rb l
      walkErr (s.moveErr l true [a, b])
      if o.c = 0 then
        let r ← if ra = rb then pure (a, b) else s.reel (2 ^ 33) a b
        let m := !r.1.done && !r.2.done && r.1.coord == r.2.coord
        pure { curs := [(ra, r.1), (rb, r.2)], preds := [(p, m), (p + 1, m)] }
      else
        let pa := !a.done && (b.done || decide (a.coord.toNat ≤ b.coord.toNat))
        let pb := !b.done && (a.done || decide (b.coord.toNat ≤ a.coord.toNat))
        pure { preds := [(p, pa), (p + 1, pb)] })
  | .ccrd _ o => some ([o.a.toNat], [], fun l => pure { cell := some (o.d.toNat, (s.rc o.a.toNat l).coord.zeroExtend 64) })
  | .cpos _ o => some ([o.a.toNat], [], fun l =>
      pure { cell := some (o.d.toNat, (s.rc o.a.toNat l).ub ++ (s.rc o.a.toNat l).pos) })
  | .ctest _ o => some ([o.a.toNat], [], fun l =>
      let c := s.rc o.a.toNat l
      pure { preds := [(o.d.toNat, if o.c.toNat % 4 = 0 then c.valid && !c.done else if o.c.toNat % 4 = 1 then c.valid && c.done
        else if o.c.toNat % 4 = 2 then c.valid else c.app)] })
  | .cmov _ o => some ([o.a.toNat], [], fun l =>
      let c := s.rc o.a.toNat l
      pure { curs := if c.app && o.d != o.a then [(o.d.toNat, c), (o.a.toNat, {})] else [(o.d.toNat, c)] })
  | _ => none

/-- A walk from an empty log: how it ends, and what it leaves. -/
def walked {α : Type} (f : WalkM α) : Except AccErr α × WalkLog := StateT.run (ExceptT.run f) ({} : WalkLog)

/-- How a walk ends, and whether it met malformed metadata. -/
def walkEnd (f : WalkM LaneRes) : Except AccErr LaneRes := (walked f).1
def walkMdfOf (f : WalkM LaneRes) : Bool := (walked f).2.mdf

/-- What a walk reads is not behind the range guard nor of an accumulator tile; where it reads a block table, which is a plain load of its
lane (R177), no access of its team is held. -/
def walkQuiet (s : State) (f : WalkM LaneRes) : Prop :=
  quiet s (walked f).2.bytes ∧ ((walked f).2.plain = true → unheld s)

/-- What the lanes of a walk have written (R174): cursors, predicates, a vector register, the RPM bits of CSEEK; nothing else. -/
def walkWrites (ls : List Nat) (res : Nat → LaneRes) (s t : State) : Prop :=
  (∀ c l, c < 8 → l < 1024 → Tbl.get ({} : Cursor) t.tm.regs.c (8 * l + c) =
    if l ∈ ls then (match (res l).curs.find? (fun e => e.1 == c) with | some e => e.2 | none => Tbl.get {} s.tm.regs.c (8 * l + c))
    else Tbl.get {} s.tm.regs.c (8 * l + c)) ∧
  (∀ p l, l < 1024 → (Tbl.get 0 t.tm.regs.p p).getLsbD l =
    if p ≠ 0 ∧ l ∈ ls then (match (res l).preds.find? (fun e => e.1 == p) with | some e => e.2 | none => (Tbl.get 0 s.tm.regs.p p).getLsbD l)
    else (Tbl.get 0 s.tm.regs.p p).getLsbD l) ∧
  (∀ r l, l < 1024 → Tbl.get ({} : VCell) t.tm.regs.v (1024 * r + l) =
    if l ∈ ls then (match (res l).cell with
      | some e => if e.1 = r then { val := e.2 } else Tbl.get {} s.tm.regs.v (1024 * r + l)
      | none => Tbl.get {} s.tm.regs.v (1024 * r + l))
    else Tbl.get {} s.tm.regs.v (1024 * r + l)) ∧
  (∀ l, l < 1024 → t.tm.regs.rpm.getLsbD l = (s.tm.regs.rpm.getLsbD l || (decide (l ∈ ls) && (res l).rpm)))

/-- Nothing that a lane writes has an older incomplete write (R91). -/
def walkSettled (s : State) (l : Nat) (r : LaneRes) : Prop :=
  (∀ e ∈ r.curs, settled s (.c e.1) l) ∧ (∀ e ∈ r.preds, settled s (.p e.1) l) ∧ (∀ e ∈ r.cell, settled s (.v e.1) l)

/-- The exclusive bound of a cursor's positions (R170, R176): its UB, which stands for 2^32 when it is 0 in an entry of kind 0, 2 or 3 that
has 2^32 positions. -/
def boundOf (c : Cursor) (d : Nat) : Nat :=
  if c.ub.toNat = 0 ∧ (dKind d = 0 ∨ dKind d = 2 ∨ dKind d = 3) ∧ dNfib d * (if dKind d = 3 then 2 ^ dHl d else dExt d) = 2 ^ 32
  then 2 ^ 32 else c.ub.toNat

/-- Whether a cursor that is live stands where its fibre has no element (R176). -/
def pastBound (s : State) (c : Cursor) : Bool :=
  let d := s.desc c.ldti.toNat
  if c.kind = 5 then decide (c.ub.toNat ≤ c.coord.toNat)
  else if c.kind = 3 then decide (boundOf c d ≤ c.pos.toNat ∨ c.pos.toNat < boundOf c d - 2 ^ dHl d)
  else if c.kind = 0 ∨ c.kind = 2 then decide (boundOf c d ≤ c.pos.toNat ∨ dExt d ≤ c.coord.toNat)
  else decide (c.ub.toNat ≤ c.pos.toNat)

/-- The bit of a bitmap that a walk finds at number `y`, when it can be read (R168 kind 2). -/
def metaBit (s : State) (e d y : Nat) : Option Bool :=
  match (walked (s.readMeta e (dP0 d + y / 8) 1)).1 with
  | .ok b => some (b.testBit (y % 8))
  | .error _ => none

/-- The coordinate list entry at position `y` (R168 kind 1). -/
def metaCrd (s : State) (e d y : Nat) : Option Nat :=
  match (walked (s.readMeta e (dP1 d + 2 ^ dCw d * y) (2 ^ dCw d))).1 with
  | .ok x => some x
  | .error _ => none

/-- The value's place at a cursor: P2 + POS times the width (R190), and what the checks answer. -/
def valueEa (s : State) (o : FmtM) (l : Nat) : Nat :=
  let c := s.rc o.a.toNat l
  (s.desc c.ldti.toNat / 2 ^ 448 % 2 ^ 64 + c.pos.toNat * (tyWidth o.ty.toNat / 8)) % 2 ^ 64
def cvldCheck (s : State) (o : FmtM) (l : Nat) : Except AccErr Checked :=
  let fp := decide (0x0E ≤ o.ty.toNat ∧ o.ty.toNat ≤ 0x10)
  s.checkLane false (valueEa s o l) (tyWidth o.ty.toNat / 8)
    { natural := o.order == 1, scaledTy := if fp then some o.ty.toNat else none, scaledBad := !fp }
def cvstCheck (s : State) (o : FmtM) (l : Nat) : Except AccErr Checked :=
  s.checkLane false (valueEa s o l) (tyWidth o.ty.toNat / 8) { rd := false, wr := true, natural := o.order == 2 }
def cvstPairs (s : State) (o : FmtM) (l : Nat) : List (PByte × Byte) :=
  if (s.rc o.a.toNat l).done || pastBound s (s.rc o.a.toNat l) then [] else
  match cvstCheck s o l with
  | .ok c => c.bytes.zip (leBytes (tyWidth o.ty.toNat / 8) (s.rv o.b.toNat l).val.toNat)
  | .error _ => []

/-- A cursor that may be used as a value's cursor, an append cursor likewise (R179). -/
def usable (s : State) (c : Cursor) (app : Bool) : Prop :=
  c.pz = false ∧ c.kind.toNat < 6 ∧ c.valid = true ∧ c.app = app ∧ s.ldtHeld c.ldti.toNat = true ∧ dKind (s.desc c.ldti.toNat) = c.kind.toNat

/-- Writes applied in order to a memory, later over earlier. -/
def applyWrites : List (Nat × List Byte) → (Nat → Byte) → Nat → Byte
  | [], m => m
  | (pa, bs) :: ws, m => applyWrites ws (fun a => if pa ≤ a ∧ a < pa + bs.length then bs.getD (a - pa) 0 else m a)

/-- Memory outside the capsule mirror (R330). -/
def ram (s : State) (a : Nat) : Prop := (regionOf s.ddr a).plain = true ∧ plainByte s a = s.mem.byte a

/-- The chunk that a claim of heap `hp` takes (R196), where the heap entry is in order and has one left. -/
def nextChunk (s : State) (hp : Nat) : Nat := hp * 2 ^ 19 + s.mem.readLe (s.heapAddr hp) 4 % 2 ^ 19
def heapOk (s : State) (hp : Nat) : Prop :=
  let pa := s.heapAddr hp
  let e := s.mem.readLe pa 16
  hp < 16 ∧ s.mem.unc pa 16 = false ∧ e.testBit 63 = true ∧ natBits e 64 16 = 0 ∧ natBits e 51 12 = 0 ∧ natBits e 19 13 = 0 ∧
    natBits e 0 19 < natBits e 32 19 ∧ s.chunkOk (natBits e 88 40 * 4096 + 4096 * natBits e 0 19) = true ∧
    (∀ j, j < 16 → ram s (pa + j)) ∧ ∀ j, j < 4096 → ram s (natBits e 88 40 * 4096 + 4096 * natBits e 0 19 + j)

/-- Ranges of `n` bytes at `a` and `m` bytes at `b` do not meet. -/
def apart (a n b m : Nat) : Prop := a + n ≤ b ∨ b + m ≤ a

/-- The writes of one appended item (R195), for a cursor in mid-chunk, before its first chunk or at the end of a chunk. -/
def appendWrites (s : State) (c : Cursor) (x : Word) (head : Nat) : List (Nat × List Byte) :=
  let n := c.pos.toNat % 512
  let hp := (Tbl.get {} s.cr.tabs.ldt c.ldti.toNat).heap
  let old := s.chunkAddr (c.pos.toNat / 512)
  let ref := nextChunk s hp
  let new := s.chunkAddr ref
  if n ≠ 0 ∧ n ≠ 511 then [(old + 8 * (n + 1), leBytes 8 x.toNat)]
  else
    [(s.heapAddr hp, leBytes 4 (s.mem.readLe (s.heapAddr hp) 4 + 1)), (new, leBytes 8 0xFFFF_FFFF),
      (if n = 0 then (head, leBytes 4 ref) else (old, leBytes 8 (511 * 2 ^ 32 + ref))), (new + 8, leBytes 8 x.toNat)]

/-- The place of a fibre's head word (R194), one run of bytes of plain memory here. -/
def headAt (s : State) (c : Cursor) (a : Nat) : Prop :=
  ∃ k, s.checkG ((s.desc c.ldti.toNat / 2 ^ 320 % 2 ^ 64 + 4 * (c.pos.toNat / 512)) % 2 ^ 64) 4 { rd := false, wr := true } = .ok k ∧
    k.bytes = (List.range 4).map (fun j => { dev := none, pa := a + j }) ∧ ∀ j, j < 4 → ram s (a + j)

/-! Copies and collectives (12 R285 to R293). -/

/-- Who issues: what an engine keeps of the team whose command it is. -/
def issuerOf (s : State) : Issuer :=
  let u := s.tm.id
  { slot := s.slot, grp := u.grp, gref := u.gref, tag := u.tag, tenant := u.tenant, pc := s.ipc, cls := u.cls, fly := s.tm.nextId }

/-- Bytes of the scratchpad that a command reads at issue, as a number, when they may be read (R286). -/
def descAt (s : State) (off n : Nat) : Option Nat :=
  let bs := s.grpOf.sBytes s.ck off n
  let x := s.seeBytes s.ck 0 bs
  if off % n = 0 ∧ off + n ≤ s.grpOf.size ∧ bs.any s.guarded = false ∧ x.2 = false then some (leNat x.1) else none

/-- The command of CPY, CPYT and CPYG as the engine takes it, where the operands are in order (R287 to R289). -/
def copyCommand (s : State) (i : Instr) : Option Copy :=
  let mk := fun (o : FmtA) (c : Copy) =>
    { c with id := s.cr.nextCopy, iss := issuerOf s, sd := s.rs o.d.toNat, sa := s.rs o.a.toNat, sb := s.rs o.b.toNat
             k := o.c.toNat % 32, nb := o.c.getLsbD 5 }
  match i with
  | .cpy _ o =>
    let b := s.rs o.b.toNat
    let n := (b.extractLsb' 0 24).toNat
    if b.extractLsb' 24 4 = 0 ∧ b.extractLsb' 32 32 = 0 ∧ 16 ≤ n ∧ n ≤ 16777200 ∧ n % 16 = 0 ∧ (s.rs o.d.toNat).toNat % 16 = 0 ∧
        (s.rs o.a.toNat).toNat % 16 = 0
    then some (mk o { kind := 0, total := n }) else none
  | .cpyt _ o =>
    let b := s.rs o.b.toNat
    match descAt s (s.rs o.d.toNat).toNat 64, descAt s (s.rs o.a.toNat).toNat 64 with
    | some x, some y =>
      let d1 : BitVec 512 := BitVec.ofNat 512 x
      let d2 : BitVec 512 := BitVec.ofNat 512 y
      let n := viewCount d1 * vEsize d1
      if b.extractLsb' 0 28 = 0 ∧ b.extractLsb' 32 32 = 0 ∧ viewOk d1 = true ∧ viewOk d2 = true ∧ viewWhole d1 = true ∧ viewWhole d2 = true ∧
          vEsize d1 = vEsize d2 ∧ viewCount d1 = viewCount d2 ∧ n ≤ 16777215 ∧ viewAligned d1 = true ∧ viewAligned d2 = true
      then some (mk o { kind := 1, d1 := d1, d2 := d2, total := n }) else none
    | _, _ => none
  | .cpyg _ o =>
    match descAt s (s.rs o.b.toNat).toNat 32 with
    | some x =>
      let d : BitVec 512 := BitVec.ofNat 512 x
      if gatherOk d then some (mk o { kind := 2, d1 := d, total := gRows d * gRowb d }) else none
    | none => none
  | _ => none

/-- The range of the issuing core's scratchpad that a copy's destination covers (R245, R246). -/
def copyCover (s : State) (c : Copy) : Option (Nat × Nat) :=
  match s.coverOf (s.dstBytes s.ck s.grpOf c) with
  | some (j, lo, hi) => if j = s.ck then some (lo, hi) else none
  | none => none

/-- The copy with its range-guard entry, the lowest that is free. -/
def guardedCopy (s : State) (c : Copy) : Copy :=
  match copyCover s c, s.freeGuard s.ck with
  | some _, some g => { c with gcore := some s.ck, gent := some g }
  | _, _ => c

/-- The range guard after the copy is taken. -/
def guardAfter (s : State) (c : Copy) (j : Nat) : Guard :=
  match copyCover s c, s.freeGuard s.ck with
  | some (lo, hi), some g =>
    if j = g then { v := true, bar := s.grpOf.bbase + c.k, src := s.ck, last := hi, base := lo, copy := c.id }
    else Tbl.get {} s.cr.tabs.guard j
  | _, _ => Tbl.get {} s.cr.tabs.guard j

/-- Hides copies, the range guard and events of a core. -/
def hideCopies (c : Core) : Core := { hideEvents c with copies := [], nextCopy := 0, tabs := { c.tabs with guard := [] } }


/-! The matrix range (09 R203 to R228). -/

/-- The matrix command that enters the crossing FIFO, where the operands are in order (R208, R213, R215, R216, R221, R228);
`none_`: no lane is served (R94). -/
def matCommand (s : State) (i : Instr) : Option MatOp :=
  let dead := s.servedBy i = 0
  match i with
  | .wbld _ o =>
    let c := s.rs o.c.toNat
    let n := o.d.toNat % 8
    let code := (c.extractLsb' 0 4).toNat
    let sp := (c.extractLsb' 4 2).toNat
    let nb := (c.extractLsb' 8 9).toNat
    if dead then some .none_
    else if 1 ≤ code ∧ code ≤ 8 ∧ sp ≤ 2 ∧ c.extractLsb' 6 2 = 0 ∧ c.extractLsb' 17 47 = 0 ∧ 1 ≤ nb ∧ nb ≤ nbLimit code sp ∧
        (s.rs o.a.toNat).toNat % 256 = 0 ∧ (s.rs o.b.toNat).toNat % 256 = 0 ∧ (s.cr.slot n).load = false ∧ s.cr.mat.slotUsed n = false
    then some (.wbld n (s.rs o.a.toNat) (s.rs o.b.toNat) c) else none
  | .wbinv _ o =>
    let n := o.d.toNat % 8
    if dead then some .none_ else if (s.cr.slot n).load then none else some (.wbinv n)
  | .azero _ o => if dead then some .none_ else some (.azero (o.d.toNat % 16))
  | .aprom _ o => if dead then some .none_ else some (.aprom (o.d.toNat % 16) (o.imm.toNat % 128))
  | .mma _ o => mma o false
  | .mmas _ o => mma o true
  | .adrn _ o =>
    if dead then some .none_
    else
      match descAt s (s.rs o.a.toNat).toNat 64 with
      | some x =>
        let d : BitVec 512 := BitVec.ofNat 512 x
        if (d.getLsbD 5 = true ∨ (d.extractLsb' 0 4).toNat ≤ 8) ∧ drainOk d s.grpOf.size = true
        then some (.adrn o.x (o.d.toNat % 16) (s.rs o.a.toNat) d) else none
      | none => none
  | .ard _ o =>
    let r := (s.rs o.b.toNat).toNat
    if 64 < r + s.nl / 32 ∨ 64 ≤ r then none
    else some (if dead then .none_ else .ard (o.a.toNat % 16) o.d.toNat r (s.servedBy i))
  | .awr _ o =>
    let r := (s.rs o.b.toNat).toNat
    if 64 < r + s.nl / 32 ∨ 64 ≤ r ∨ cleanIn s i [o.a.toNat] = false then none
    else some (if s.lanesBy i = [] then .none_ else .awr (o.d.toNat % 16) r ((s.lanesBy i).map (fun l => (l, (s.rv o.a.toNat l).val))))
  | _ => none
where
  /-- MMA and MMAS: a valid slot of the width of the type, K a multiple of what a chunk takes, the columns inside the slot and the
  records inside the allocation. -/
  mma (o : FmtA) (clear : Bool) : Option MatOp :=
    let a := s.rs o.a.toNat
    let c := s.rs o.c.toNat
    let n := o.b.toNat % 8
    let w := s.cr.slot n
    let code := typeCode o.ty.toNat
    let kk := (c.extractLsb' 0 16).toNat
    let k0 := (c.extractLsb' 16 16).toNat
    if s.servedBy i = 0 then some .none_
    else if w.valid = true ∧ w.load = false ∧ codeWidth code = codeWidth w.fmt ∧ kk ≠ 0 ∧ kk % spanOf code w.spar = 0 ∧ k0 % 16 = 0 ∧
        k0 + kk ≤ 16 * w.nb ∧ c.extractLsb' 32 32 = 0 ∧ a.toNat % 16 = 0 ∧ a.toNat + aBytes code kk ≤ s.grpOf.size
    then some (.mma clear o.x code (o.d.toNat % 16) n a c) else none

/-- Hides the matrix state and events of a core. -/
def hideMat (c : Core) : Core := { hideEvents c with mat := {} }

/-- A slot of the weight buffer after a command of the load word or the invalidation of a slot. -/
def slotAfter (op : MatOp) (k : Nat) (w : WSlot) : WSlot :=
  match op with
  | .wbld n .. => if k = n then { w with load := true } else w
  | .wbinv n => if k = n then { w with valid := false } else w
  | _ => w

/-! Gatherers (13 R308, R309). -/

/-- Nothing differs but the gatherer that issues and what `hide` erases of its core. -/
def onlyGath (hide : Core → Core) (s t : State) : Prop :=
  { t with mem := s.mem, cores := s.cores } = s ∧ (∀ k, k ≠ s.ck → t.core k = s.core k) ∧
    { hide t.cr with gaths := [] } = { hide s.cr with gaths := [] } ∧ ∀ j, j ≠ s.gi → t.gath s.ck j = s.gath s.ck j

/-- A gatherer has gone on to the next word, or back to the start of a loop; of itself only its scalars may differ. -/
def gathMoves (s t : State) : Prop :=
  let p := loopBack s.gt.pc { pc := nextPc s.gt.pc, loops := s.gt.loops }
  t.gt.pc = p.pc ∧ t.gt.loops = p.loops ∧ { t.gt with pc := s.gt.pc, loops := s.gt.loops, s := s.gt.s } = s.gt

/-! Events of the device: what each leaves alone. -/

/-- Nothing differs but core `k`, and of it only what `hide` erases. -/
def coreOnly (k : Nat) (hide : Core → Core) (s t : State) : Prop :=
  { t with cores := s.cores } = s ∧ (∀ j, j ≠ k → t.core j = s.core j) ∧ hide (t.core k) = hide (s.core k)

/-- Nothing differs but the team in slot `i` of core `k`. -/
def slotOnly (k i : Nat) (s t : State) : Prop :=
  coreOnly k (fun c => { c with teams := [] }) s t ∧ ∀ j, j ≠ i → t.team k j = s.team k j

/-- Nothing differs but die `d`, and of it only what `hide` erases. -/
def dieOnly (d : Nat) (hide : Die → Die) (s t : State) : Prop :=
  { t with dies := s.dies } = s ∧ (∀ j, j ≠ d → t.die j = s.die j) ∧ hide (t.die d) = hide (s.die d)

/-- The registers of every lane and the scalars of a team are those of another. -/
def sameValues (t u : Team) : Prop := u.regs.v = t.regs.v ∧ u.regs.s = t.regs.s ∧ u.regs.p = t.regs.p ∧ u.regs.c = t.regs.c

/-- The registers of every team are unchanged. -/
def valuesKept (s t : State) : Prop := ∀ k i, sameValues (s.team k i) (t.team k i)

/-- A class-P device event is accepted by every core that `on` names, by no other (R316, R317), and nothing else of a core differs. -/
def coresNote (on : Nat → Bool) (ty payload : Nat) (s t : State) : Prop :=
  ∀ k, { t.core k with rcd := {} } = { s.core k with rcd := {} } ∧
    (t.core k).rcd = if on k then ((s.core k).event (evWord ty 0 0xFF t.time payload) true).rcd else (s.core k).rcd

/-- The state in which the team in slot `i` of core `k` is looked at. -/
def asTeam (s : State) (k i : Nat) : State := { s with cur := .team k i }

/-- The image of a group as GROUP_SAVE would write it now (R392, R393): its tiles promoted, its waits withdrawn. -/
def saveImage (s : State) (k g : Nat) : List BB :=
  let a := if s.savesTiles k g then s.promotedFlags k g else s
  (((s.core k).group g).slots.foldl (fun s i => s.onTeam k i Team.withdraw) a).image k g

/-- Nothing of task queues differs but queue `q`. -/
def queueOnly (q : Nat) (s t : State) : Prop :=
  dieOnly (q / 64) (fun d => { d with queues := [] }) { s with mem := t.mem } t ∧ ∀ n, n ≠ q → n / 64 = q / 64 → t.tq n = s.tq n

/-- The instruction that gave a command has completed, if its team is still there (R50, R89). -/
def commandOver (k : Nat) (i : Issuer) (s t : State) : Prop :=
  (s.team k i.slot).id.gref = i.gref → ∀ f ∈ (t.team k i.slot).fly, f.id ≠ i.fly

/-- A matrix command has completed; in a relock its completion waits for the first core cycle after it (R205). -/
def matOver (k : Nat) (i : Issuer) (s t : State) : Prop :=
  if (s.die (dieOfCore k)).clk.relock = none then (t.core k).mat.late = (s.core k).mat.late ∧ commandOver k i s t
  else ∃ bits, (t.core k).mat.late = (s.core k).mat.late ++ [(i, bits)]

/-- A collective's data waits for every other member of its context at the lowest port that leads there, on VC 4 (R412, R414, R419). -/
def collSent (c : Copy) (s t : State) : Prop :=
  ∀ n, let p : Port := Tbl.get {} s.ports n
    let to_ := (s.ctxMembers c.ctx).filter (fun d =>
      d != s.io.domidx && (List.range 16).find? (fun i => (Tbl.get 0 s.io.routes d).getLsbD i) == some n)
    Tbl.get ({} : Port) t.ports n =
      { p with queued := p.queued ++ to_.map (fun d => { vc := 4, dev := d, tenant := c.iss.tenant, cls := c.iss.cls }) }

/-- The terms of a chunk at element `e` (R215): the partial, and the exact products whose rows operand B keeps. -/
def chunkTerms (run : MmaRun) (code : Nat) (tr : Bool) (k0 span : Nat) (part : BitVec 26) (e : Nat) : List Fl :=
  decodeFp 0x15 part.toNat :: (List.range span).filterMap (fun n =>
    (bElem run.slot (k0 + (run.chunks * span + n)) (e % 64)).map (fun y => (mulFl (aElem code tr run.recs (e / 64) (run.chunks * span + n)).1 y.1).1))

/-- RoundNE to .f32 of an exact value (R67, R222). -/
def ne32 (x : Fl) : Nat := (roundFp 0x10 false false x).1

/-- Steps 2 to 4 of the epilogue at element (i, j) (R222, R223): scaled, the residual added, dropped out. -/
def drained (d : BitVec 512) (i j : Nat) (img : BitVec 32) (res : Option Fl) : Nat :=
  let f32 := decodeFp 0x10
  let y := ne32 (mulFl (f32 img.toNat) (f32 (d.extractLsb' 224 32).toNat)).1
  let y := match res with | none => y | some r => ne32 (sumFl [f32 y, r]).1
  if dDrop d = false then y
  else if rand (d.extractLsb' 320 64) (d.extractLsb' 256 64) ((d.extractLsb' 128 32).toNat + i) ((d.extractLsb' 96 32).toNat + j) <
      (d.extractLsb' 160 32).toNat then 0
  else ne32 (mulFl (f32 y) (f32 (d.extractLsb' 192 32).toNat)).1

/-- The residual of element (i, j) in the scratchpad allocation at `base` (R222). -/
def residualAt (s : State) (base : Nat) (d : BitVec 512) (i j : Nat) : Option Fl :=
  if dRes d = 0 then none
  else some (decodeFp (if dResf d then 0xF else 0x10)
    (leNat ((List.range (dRel d)).map (fun b => s.mem.byte (base + dRes d + i * dRstride d + j * dRel d + b)))))

/-- A plain element as a drain stores or adds it (R222, R225). -/
def plainOut (d : BitVec 512) (y old : Nat) : Nat :=
  let ty := if dOutf d = 7 then 0xF else 0x10
  if dAdd d then (roundFp ty false false (sumFl [decodeFp ty old, decodeFp 0x10 y]).1).1
  else if dOutf d = 7 then (roundFp 0xF false false (decodeFp 0x10 y)).1 else y

/-- The tile that a drain leaves of 256 values over an old tile (R76, R82, R222, R225). -/
def tileOut (d : BitVec 512) (xs : List Nat) (old : List Byte) (entry : Nat) : List Byte × Nat :=
  let was := fun n => if tileOk old entry then (tileVal (dOutf d) old entry (n / 16) (n % 16)).1 else .fin false 0 0
  let ys := if dAdd d then (xs.zip (List.range 256)).map (fun x => ne32 (sumFl [was x.2, decodeFp 0x10 x.1]).1) else xs
  let r := formTile ys (dOutf d) ((entry / 2 ^ 96 + 1) % 2 ^ 32)
  (r.1, r.2.1)

/-- Bytes of physical memory are as before but those that `at_` names. -/
def memElse (at_ : Nat → Prop) (s t : State) : Prop := ∀ a, ¬ at_ a → t.mem.byte a = s.mem.byte a

/-- The FIFO has lost its head and nothing else of the matrix state differs but what `hide` erases. -/
def headLeft (k : Nat) (rest : List MatCmd) (hide : CoreMat → CoreMat) (s t : State) : Prop :=
  t.mem = s.mem ∧ t.dies = s.dies ∧ (∀ j, j ≠ k → t.core j = s.core j) ∧ (t.core k).mat.fifo = rest ∧
    hide { (t.core k).mat with fifo := [] } = hide { (s.core k).mat with fifo := [] }

/-- Nothing differs but the I/O block, and of it only what `hide` erases. -/
def ioOnly (hide : IoBlock → IoBlock) (s t : State) : Prop := { t with io := s.io } = s ∧ hide t.io = hide s.io

/-- Nothing differs but port `n`. -/
def portOnly (n : Nat) (s t : State) : Prop :=
  { t with ports := s.ports } = s ∧ ∀ j, j ≠ n → Tbl.get ({} : Port) t.ports j = Tbl.get {} s.ports j

/-- One answer more than before goes to the host. -/
def answered (status : Nat) (bs : List Byte) (s t : State) : Prop :=
  t = { s with io := { s.io with answers := s.io.answers ++ [(status, bs)] } }

/-- The commands of the mailbox: function, tag, payload, and what the command's layout asks of it (R429, R430). -/
def mailAsk : Instr → Option (Nat × Nat × List Byte × MailShape)
  | .mailboxId fn tag req => some (fn, tag, req, { code := 0x01, early := 1 })
  | .fwload fn tag req data => some (fn, tag, req ++ data, { code := 0x02, need := 8, operator := true, early := 1 })
  | .cert fn tag req => some (fn, tag, req, { code := 0x03, need := 4, early := 2 })
  | .step fn tag req => some (fn, tag, req, { code := 0x10, need := 8, zeros := [2, 3, 4, 5, 6, 7], operator := true })
  | .limitsRead fn tag req => some (fn, tag, req, { code := 0x11, need := 12, zeros := [1, 2, 3], operator := true })
  | .limitsSet fn tag req => some (fn, tag, req, { code := 0x11, need := 12, zeros := [1, 2, 3], operator := true })
  | .stateActive fn tag req => some (fn, tag, req, { code := 0x12, need := 8, zeros := [1, 2, 3, 4, 5, 6, 7], operator := true })
  | .stateQuiesce fn tag req => some (fn, tag, req, { code := 0x12, need := 8, zeros := [1, 2, 3, 4, 5, 6, 7], operator := true })
  | .stateStandby fn tag req => some (fn, tag, req, { code := 0x12, need := 8, zeros := [1, 2, 3, 4, 5, 6, 7], operator := true })
  | .stateWarmReset fn tag req => some (fn, tag, req, { code := 0x12, need := 8, zeros := [1, 2, 3, 4, 5, 6, 7], operator := true })
  | .svnset fn tag req => some (fn, tag, req, { code := 0x13, need := 4, operator := true })
  | .mailboxTime fn tag req => some (fn, tag, req, { code := 0x20 })
  | .errors fn tag req => some (fn, tag, req, { code := 0x21, need := 4, operator := true })
  | .clear fn tag req => some (fn, tag, req, { code := 0x22, need := 8, zeros := [1, 2, 3, 4, 5, 6, 7], operator := true })
  | .caplist fn tag req => some (fn, tag, req, { code := 0x40 })
  | .capget fn tag req => some (fn, tag, req, { code := 0x41, need := 8, zeros := [1, 2, 3] })
  | .capack fn tag req => some (fn, tag, req, { code := 0x42, need := 8, zeros := [2, 3, 4, 5, 6, 7] })
  | .capfreeze fn tag req => some (fn, tag, req, { code := 0x43, operator := true })
  | _ => none

/-- The mailbox of function `fn` holds a reply, and its interrupt is sent (R407, R428); the management Ethernet, channel 17, has none
(log 118). -/
def replied (fn code tag status : Nat) (bs : List Byte) (s t : State) : Prop :=
  Tbl.get 0 t.ctrl.mbox fn = BitVec.ofNat 64 (2 ^ 62 + tag % 2 ^ 16 * 2 ^ 32 + bs.length * 2 ^ 16 + status * 2 ^ 8 + code) ∧
    (∀ i, i < 4096 → Tbl.get 0 t.ctrl.mrep (4096 * fn + i) = bs.getD i 0) ∧
    t.io.msix = s.io.msix ++ (if fn = 17 then [] else [(fn, if fn = 0 then 4 else 0)])

/-- Nothing differs but the mailbox of function `fn`, its interrupt, and what `hide` erases of the controller. -/
def mailOnly (fn : Nat) (hide : Ctrl → Ctrl) (s t : State) : Prop :=
  { t with ctrl := s.ctrl, io := s.io } = s ∧ { t.io with msix := s.io.msix } = s.io ∧
    hide { t.ctrl with mbox := [], mreq := [], mrep := [] } = hide { s.ctrl with mbox := [], mreq := [], mrep := [] } ∧
    ∀ j, j ≠ fn → Tbl.get 0 t.ctrl.mbox j = Tbl.get 0 s.ctrl.mbox j

/-- A request is posted and nothing stands against serving it. -/
def mailReady (i : Instr) (s : State) : Prop :=
  ∃ fn tag req m, mailAsk i = some (fn, tag, req, m) ∧ fn < 18 ∧ s.mailOpen fn = true ∧ s.pending fn = false ∧
    s.refuses m fn (req.take 4096) = none

/-- The error counter of a structure of a core. -/
def State.errOf (s : State) (k n : Nat) : ErrCnt := Tbl.get {} (s.core k).ctl.errs n

/-- An error counter at a later time (R376): corrected errors go with their window, uncorrectable ones after 24 hours. -/
def agedErr (now : Nat) (past : Bool) (e : ErrCnt) : ErrCnt :=
  { e with
    ce := if past then 0 else e.ce
    times := e.times.filter (fun x => decide (now < x + 86400000000000))
    ue := e.ue - (e.times.filter (fun x => decide (x + 86400000000000 ≤ now))).length }

/-- The error counter of a structure of a core as it stands now. -/
def State.errNow (s : State) (k n : Nat) : ErrCnt :=
  agedErr s.time (decide ((s.core k).ctl.winStart + max 1 ((s.core k).ctl.errwin * 1000000) ≤ s.time)) (s.errOf k n)

/-- A machine in which nothing runs and every table is at its reset values; only what R390 keeps is left of the cores. -/
def coldMachine (s t : State) : Prop :=
  t.dies = [] ∧ t.tasks = [] ∧ t.io = {} ∧ t.ports = [] ∧ (∀ a, t.mem.byte a = 0 ∧ t.mem.isBad a = false) ∧
    ∀ k, (t.core k).teams = [] ∧ (t.core k).groups = [] ∧ (t.core k).mat = {} ∧ (t.core k).copies = [] ∧ (t.core k).tabs = {} ∧
      (t.core k).ctl.retired = (s.core k).ctl.retired ∧ (t.core k).ctl.spares = (s.core k).ctl.spares

/-- Every unit's number is one the device has. -/
def State.numbered (s : State) : Prop :=
  (∀ c ∈ s.cores, c.1 < 192 ∧ (∀ t ∈ c.2.teams, t.1 < 16) ∧ ∀ e ∈ c.2.ctl.errs, e.1 < 15) ∧ ∀ t ∈ s.tasks, t.1 / 2 ^ 32 < 256

/-- What each C-die knows of itself once the device has settled: since when it sits idle, exactly if it does (R306), and a preemption that
is still saving, only while a group that it saves is resident (R391, R392). -/
def State.diesSettled (s : State) : Prop :=
  ∀ d, d < 4 → (s.die d).disp.idle.isSome = s.idle d ∧
    ((s.die d).cmd.saving = true → ∃ c ∈ s.cores, dieOfCore c.1 = d ∧ ∃ g ∈ c.2.resident, g.2.saving = true)

/-- A selected agent may issue: no join stands before it, or it has a replay to make, or it is a gatherer. -/
def State.pastJoins (s : State) : Prop := s.isGath = true ∨ s.tm.flt.replay = true ∨ s.tm.path.atJoin = false

/-- No debug stop lands here (R124). -/
def State.noStopHere (s : State) (w : Word) : Prop :=
  s.isGath = true ∨ s.tm.flt.replay = true ∨ s.tm.flt.win ≠ none ∨ s.tm.flt.dbg = none ∨ stopsAt (wOpc w) = false

/-- The team has ranked the elements of its served lanes and put the first k of them into its output positions (R166). -/
def ranked (s : State) (i : Instr) (o : FmtA) (idx : Bool) : Prop :=
  let ty := o.ty.toNat
  let ls := s.lanesBy i
  let w := if idx then 32 else tyWidth ty
  let n := 64 / w
  let es := ls.flatMap (fun l => (List.range (64 / tyWidth ty)).map (fun k => (64 / tyWidth ty * l + k, teamElem s (s.readCyc l) ty o.a.toNat (64 / tyWidth ty * l + k))))
  let k := (s.rs o.b.toNat).toNat
  ∃ (t : State) (r : List (Nat × Nat)), exec i s = .next t ∧ onlyTeam s t ∧ keepsTeam s t ∧ advances s t ∧ inFlight i 0 s t ∧
    { t.tm.regs with v := s.tm.regs.v } = signalled i s ∧ r.Perm es ∧
    r.Pairwise (fun x y => ranksBefore ty (o.c == 1) x.2 y.2 = true ∨ (ranksBefore ty (o.c == 1) y.2 x.2 = false ∧ x.1 < y.1)) ∧
    (∀ m, m < ls.length → n * m < min k r.length →
      let x := Tbl.get ({} : VCell) t.tm.regs.v (1024 * o.d.toNat + ls.getD m 0)
      x.pz = false ∧ ∀ j, j < n → sub w j x.val.toNat =
        if n * m + j < min k r.length then (if idx then (r.getD (n * m + j) (0, 0)).1 else (r.getD (n * m + j) (0, 0)).2) % 2 ^ w
        else sub w j (s.rv o.d.toNat (ls.getD m 0)).val.toNat) ∧
    (∀ q l, l < 1024 → ¬ (q = o.d.toNat ∧ ∃ m, m < ls.length ∧ ls.getD m 0 = l ∧ n * m < min k r.length) →
      Tbl.get ({} : VCell) t.tm.regs.v (1024 * q + l) = Tbl.get {} s.tm.regs.v (1024 * q + l))

end Sys2Proof.Machine

open Sys2Proof Sys2Proof.Machine

/-- R139 to R142, R303, R311, R373: every instruction that computes or reads a scalar: arithmetic, division, bitwise operations, shifts, bit fields,
moves, immediates, SCMP into a scalar register, SV2S, TIME, CYC, DEQ.hdr, DEQ.arg, QCW.rd.
The model's own choices in it: log 108. -/
def Obligations.ScalarResults : Prop :=
  (scalarRule scalarArith) ∧
  (scalarRule scalarDivide) ∧
  (scalarRule scalarBitwise) ∧
  (scalarRule scalarMove) ∧
  (scalarRule scalarReads)

/-- R133, R144 to R148, R150, R151: vector integer arithmetic, dot products, bitwise operations, shifts, counts, VSAT, moves, broadcasts,
packing, WIDR, MASKR.
The model's own choices in it: log 101. -/
def Obligations.LaneIntegerResults : Prop :=
  (laneRule laneArith) ∧
  (laneRule laneBitwise) ∧
  (laneRule laneMove)

/-- R152 to R159: the floating-point range. -/
def Obligations.LaneFloatResults : Prop := laneRule laneFloat

/-- R161 to R166: XLANE, SLIDE, VRED, VSCAN; PERM, whose pattern entry is kept until its last section has issued; TOPK and TOPKX also where
the output positions are too few or a lane of v[d] is poisoned.
The model's own choices in it: log 45, 107, 110, 139. -/
def Obligations.CrossLaneResults : Prop :=
  (laneRule laneGather) ∧
  (laneRule laneReduce) ∧
  (∀ s h o r, let i := Instr.perm h o
    permResult s i o = some r → canIssue i s = true → r.clean = true → (∀ l ∈ s.lanesBy i, settled s (.v r.d) l) →
    ∃ t, exec i s = .next t ∧ onlyCore hidePats s t ∧ laneWritten i r s t ∧
      ∀ c, t.pat c = if c = o.c.toNat then { s.pat c with swept := max (s.pat c).swept (s.cyc + s.sections (instrInfo i)) } else s.pat c) ∧
  (∀ s h o (idx : Bool), let i := if idx then Instr.topkx h o else Instr.topk h o
    canIssue i s = true → cleanIn s i [o.a.toNat] = true → (∀ l ∈ s.lanesBy i, settled s (.v o.d.toNat) l) → ranked s i o idx)

/-- R131, R141, R149, R155, R167: every instruction that writes a predicate from an outcome of each lane. -/
def Obligations.PredicateResults : Prop :=
  ∀ s i r, predTable s i = some r → canIssue i s = true → r.clean = true → (∀ l ∈ s.lanesBy i, settled s (.p r.d) l) →
    ∃ t, exec i s = .next t ∧ predDone i r s t

/-- R111, R113, R114, R117, R119, R120, R121: NOP, branches that keep the path whole, JMPI, RET, LOOP, LOOPX.
R119: CALL and CALLI write PC + 8 into the link register and go to the target. -/
def Obligations.PathsAndCalls : Prop :=
  (∀ s i p, ctlPath s i = some p → canIssue i s = true → ∃ t, exec i s = .next t ∧ pathDone i p (completed i 0 s) s t) ∧
  (∀ s i d w, linkTarget s i = some (d, w) → canIssue i s = true → s.servedBy i ≠ 0 → settled s (.s d) 0 →
      ∃ t, exec i s = .next t ∧ onlyTeam (checkedTargets s i) t ∧ keepsTeam s t ∧ inFlight i 0 s t ∧
        t.tm.path = loopBack s.ipc { s.tm.path with pc := w } ∧ { t.tm.regs with s := s.tm.regs.s } = signalled i s ∧
        ∀ r, Tbl.get 0 t.tm.regs.s r = if r = d ∧ d ≠ 0 then nextPc s.ipc else Tbl.get 0 s.tm.regs.s r)

/-- R118, R122, R123, R128, R134: LAND, EXIT, YIELD without a request, SIGCK on a match, SWR of TSTAT. -/
def Obligations.TeamStateInstructions : Prop :=
  ∀ s i p r, ctlRegs s i = some (p, r) → canIssue i s = true → ∃ t, exec i s = .next t ∧ pathDone i p r s t

/-- R130, R131, R134: VOTE, SRD, WAITF with its condition holding. SRD reads the register of its number, laid out as its table has it
(R55, R57, R60 to R62, R349, R371, R374 to R376).
The model's own choices in it: log 24. -/
def Obligations.ControlScalarResults : Prop :=
  (∀ s i d w, ctlScalar s i = some (d, w) → canIssue i s = true → settled s (.s d) 0 →
    ∃ t, exec i s = .next t ∧ scalarDone i d w 0 s t) ∧
  ∀ s h o, let i := Instr.srd h o
    let n := o.imm.toNat
    canIssue i s = true → s.servedBy i ≠ 0 → (sysOpen n = true ∨ (sysPriv n = true ∧ s.tm.id.prv = true)) → settled s (.s o.d.toNat) 0 →
    ∃ t, exec i s = .next t ∧ scalarDone i o.d.toNat (sysLaid s n) 0 s t

/-- R132: ELECT. -/
def Obligations.ElectChoosesLowestLane : Prop :=
  ∀ s h o, canIssue (.elect h o) s = true → settled s (.s o.d.toNat) 0 →
    (∀ l ∈ s.lanesBy (.elect h o), settled s (.p o.a.toNat) l) →
    let ls := s.lanesBy (.elect h o)
    ∃ t, exec (.elect h o) s = .next t ∧ onlyTeam s t ∧ keepsTeam s t ∧ advances s t ∧ inFlight (.elect h o) 0 s t ∧
      { t.tm.regs with s := s.tm.regs.s, p := s.tm.regs.p } = signalled (.elect h o) s ∧
      (∀ r, Tbl.get 0 t.tm.regs.s r = if r = o.d.toNat ∧ r ≠ 0 then
        (match ls with | [] => 0xFFFF_FFFF_FFFF_FFFF | l :: _ => BitVec.ofNat 64 l) else Tbl.get 0 s.tm.regs.s r) ∧
      ∀ q l, l < 1024 → (Tbl.get 0 t.tm.regs.p q).getLsbD l =
        if q = o.a.toNat ∧ q ≠ 0 ∧ l ∈ ls then decide (some l = ls.head?) else (Tbl.get 0 s.tm.regs.p q).getLsbD l

/-- R114, R127: a BRA that diverges pushes the set with the higher next PC and runs the other.
R117, R127: a JMPI with several distinct targets runs the lowest and pushes the others, the next-lowest on top.
R317, R319: each push records one divergence event with the depth it makes.
R35: a backward branch that brings the spin count to the threshold hands the team to the path on top of the stack and takes its place there. -/
def Obligations.BranchesDiverge : Prop :=
  (∀ s h o, let i := Instr.bra h o
      canIssue i s = true → let T := s.servedBy i; let F := s.active &&& ~~~T; let g := goalOf o s.ipc; let n := nextPc s.ipc
      T ≠ 0 → F ≠ 0 → g ≠ n → o.join ≠ 0 → s.tm.path.stack.length < 32 → T ||| F = s.active →
      (g.toNat ≤ s.ipc.toNat → n = joinOf o s.ipc ∨ ¬ s.cr.ctl.spinth ≤ if s.tm.path.tgt = some g then s.tm.path.spin + 1 else 1) →
      ∃ t, exec i s = .next t ∧ onlyCore hideEvents s t ∧ keepsTeam s t ∧ isComplete s t ∧
        t.tm.regs = { completed i 0 s with sig := s.tm.regs.sig.rotateLeft 5 ^^^ 0x200 } ∧
        emitted 0x01 ((s.tm.path.stack.length + 1) * 2 ^ 58 + pcBits s.ipc) false s t ∧
        t.tm.path = loopBack s.ipc (if g.toNat < n.toNat then
          { pathTo s g with mask := Mask.of T, stack := ⟨joinOf o s.ipc, n, Mask.of F, s.tm.path.tgt⟩ :: s.tm.path.stack }
          else { inLine s with mask := Mask.of F, stack := ⟨joinOf o s.ipc, g, Mask.of T, s.tm.path.tgt⟩ :: s.tm.path.stack })) ∧
  (∀ s h o w m rest, let i := Instr.jmpi h o
      canIssue i s = true → jmpiClean s i o = true → targetSets (jmpiTargets s i o) ((w, m) :: rest) → rest ≠ [] → o.b ≠ 0 →
      let join := s.rs o.b.toNat
      let u := checkedTargets s i
      join ≠ 0 → pcMask join = join → s.tm.path.stack.length + rest.length ≤ 32 →
      (w.toNat ≤ s.ipc.toNat → rest.head?.map Prod.fst = some join ∨
        ¬ s.cr.ctl.spinth ≤ if s.tm.path.tgt = some w then s.tm.path.spin + 1 else 1) →
      ∃ t, exec i s = .next t ∧ onlyCore hideEvents u t ∧ keepsTeam s t ∧ isComplete s t ∧
        t.tm.regs = { completed i 0 s with sig := rest.foldl (fun g _ => g.rotateLeft 5 ^^^ 0x200) s.tm.regs.sig } ∧
        t.cr.rcd = ((List.range rest.length).foldl (fun (c : Core) j => c.event (evWord 0x01 s.slot s.tm.id.tenant s.time
          ((s.tm.path.stack.length + j + 1) * 2 ^ 58 + pcBits s.ipc)) false) u.cr).rcd ∧
        t.tm.path = loopBack s.ipc { pathTo s w with
          mask := Mask.of m
          stack := rest.map (fun e => ⟨join, e.1, Mask.of e.2, s.tm.path.tgt⟩) ++ s.tm.path.stack }) ∧
  (∀ s i, (match i with | .bra .. | .brs .. | .brc .. | .jmpiU .. => True | _ => False) → canIssue i s = true →
      ∀ w, branchTo s i = some w → demotes s w = true →
      ∃ t, exec i s = .next t ∧ onlyCore hideEvents (checkedTargets s i) t ∧ keepsTeam s t ∧ isComplete s t ∧
        (∀ e es, s.tm.path.stack = e :: es →
          t.tm.path = { s.tm.path with pc := e.ppc, mask := e.mask, spin := 0, tgt := e.tgt
                                       stack := { jpc := e.jpc, ppc := w, mask := s.tm.path.mask, tgt := some w } :: es }) ∧
        t.tm.regs = { completed i 0 s with sig := s.tm.regs.sig.rotateLeft 5 ^^^ 0x200 })

/-- R51, R129, R319: RGNE pushes an identifier, dropping the oldest of eight and setting ROV; RGNL pops; each records its event.
R129: MARK writes a trace record with its identifier, group reference and slot when block tracing is enabled, else nothing.
The model's own choices in it: log 33. -/
def Obligations.RegionsAndMarks : Prop :=
  ((∀ s h o, canIssue (.rgne h o) s = true → s.servedBy (.rgne h o) ≠ 0 →
      let full := decide (8 ≤ s.tm.regs.regions.length)
      let rs := (BitVec.ofNat 16 o.imm.toNat :: s.tm.regs.regions).take 8
      ∃ t, exec (.rgne h o) s = .next t ∧ onlyCore hideEvents s t ∧ keepsTeam s t ∧ isComplete s t ∧ advances s t ∧
        t.tm.regs = { completed (.rgne h o) (if full then 2 ^ 11 else 0) s with regions := rs } ∧
        emitted 0x03 (o.imm.toNat * 2 ^ 48 + rs.length * 2 ^ 44 + (full || s.tm.regs.tstat.getLsbD 11).toNat * 2 ^ 43) false s t) ∧
    (∀ s h o, canIssue (.rgnl h o) s = true → s.servedBy (.rgnl h o) ≠ 0 →
      ∃ t, exec (.rgnl h o) s = .next t ∧ onlyCore hideEvents s t ∧ keepsTeam s t ∧ isComplete s t ∧ advances s t ∧
        t.tm.regs = { completed (.rgnl h o) 0 s with regions := s.tm.regs.regions.drop 1 } ∧
        emitted 0x04 ((s.tm.regs.regions.headD 0).toNat * 2 ^ 48 + (s.tm.regs.regions.length - 1) * 2 ^ 44
          + (s.tm.regs.tstat.getLsbD 11).toNat * 2 ^ 43) false s t)) ∧
  (∀ s h o, canIssue (.mark h o) s = true →
      ∃ t, exec (.mark h o) s = .next t ∧ onlyCore hideEvents s t ∧ keepsTeam s t ∧ isComplete s t ∧ advances s t ∧
        t.tm.regs = completed (.mark h o) 0 s ∧
        let rs := s.tm.regs.regions.map BitVec.toNat
        let m : TraceRec := { imm := o.imm.toNat, gref := s.tm.id.gref, slot := s.slot, rtop := rs.headD 0, rnext := rs.getD 1 0 }
        t.cr.rcd = (if s.cr.rcd.trace then { s.cr.rcd with marks := s.cr.rcd.marks ++ [m] } else s.cr.rcd))

/-- R130: a WAITF whose condition does not hold puts the team in WAITING at its PC, until the condition or its timeout.
The model's own choices in it: log 14, 24. -/
def Obligations.WaitfWaits : Prop :=
  ∀ s h o, let i := Instr.waitf h o
    canIssue i s = true → s.servedBy i ≠ 0 →
    o.count.toNat < (s.tm.flag o.obj.toNat).count + (if flagOf i = o.obj.toNat then 1 else 0) →
    ∃ t, exec i s = .next t ∧ onlyTeam s t ∧ inFlight i 0 s t ∧ t.tm.path = s.tm.path ∧ t.tm.regs = signalled i s ∧
      t.tm.st = 2 ∧ ∃ w, t.tm.wait = some w ∧ w.kind = .flag o.obj.toNat o.count.toNat ∧ w.dest = o.d.toNat ∧ w.pc = s.ipc ∧
        w.deadline = if o.t = 15 then none else some (s.time + 2 ^ (o.t.toNat + 8))

/-- R94: a team-uniform instruction that serves no lane of its path issues with no effect of its own, where no fault that its rule raises
without regard to the guard stands against it (R103). -/
def Obligations.UniformWithoutLanes : Prop :=
  ∀ s i, teamUniform i = true → canIssue i s = true → s.servedBy i = 0 → deadClean s i →
    ∃ t, exec i s = .next t ∧ onlyTeam s t ∧ keepsTeam s t ∧ advances s t ∧
      (if (instrInfo i).lat = .none_ then isComplete s t ∧ t.tm.regs = completed i 0 s
       else inFlight i 0 s t ∧ t.tm.regs = signalled i s)

/-- R59, R61, R62, R349, R374 to R376: SWR of a core register, in a privileged team.
R61, R62, R349, R375: writes of SPINTH, AELOG, BKCTL, SSCTL and SPC.
The model's own choices in it: log 71. -/
def Obligations.CoreRegisterWrites : Prop :=
  (∀ s h o, let i := Instr.swr h o
      canIssue i s = true → s.servedBy i ≠ 0 → s.tm.id.prv = true →
      o.imm.toNat = 0x030 ∨ o.imm.toNat = 0x031 ∨ sysPriv o.imm.toNat = true →
      ∃ t, exec i s = .next t ∧ { t with cores := s.cores } = s ∧ (∀ k, k ≠ s.ck → t.core k = s.core k) ∧
        (∀ j, j ≠ s.slot → t.cr.team j = s.cr.team j) ∧ keepsTeam s t ∧ isComplete s t ∧ advances s t ∧
        t.tm.regs = completed i 0 s ∧
        { t.cr with teams := [] } = { s.cr.sysWrite o.imm.toNat (s.rs o.a.toNat) with teams := [] } ∧
        (o.imm.toNat = 0x030 → t.cr.ctl.spinth = max 16 (min 1024 ((s.rs o.a.toNat).toNat % 2048))) ∧
        (o.imm.toNat = 0x031 → t.cr.mat.aelog = 0)) ∧
  (∀ s k v, k < 192 → let c := s.core k
      (∃ t, exec (.spinthWrite k v) s = .next t ∧ coreOnly k (fun c => { c with ctl := { c.ctl with spinth := 0 } }) s t ∧
        (t.core k).ctl.spinth = max 16 (min 1024 (v.toNat % 2048))) ∧
      (∃ t, exec (.aelogWrite k v) s = .next t ∧ coreOnly k (fun c => { c with mat := { c.mat with aelog := 0 } }) s t ∧ (t.core k).mat.aelog = 0) ∧
      (∃ t, exec (.ssctlWrite k v) s = .next t ∧ coreOnly k (fun c => { c with ctl := { c.ctl with ssen := false, ssper := 0 } }) s t ∧
        (t.core k).ctl.ssen = v.getLsbD 63 ∧ (t.core k).ctl.ssper = max 64 (v.toNat % 2 ^ 20)) ∧
      (∀ j, j < 8 → ∃ t, exec (.bkctlWrite k j v) s = .next t ∧ coreOnly k (fun c => { c with tabs := { c.tabs with bk := [] } }) s t ∧
        ∀ n, let b : Bkpt := Tbl.get {} c.tabs.bk n
          let w := v &&& 0xFFFC_0000_0000_FFFF
          Tbl.get {} (t.core k).tabs.bk n = if n = j then { b with ctl := if b.ok w then w else w &&& 0x7FFF_FFFF_FFFF_FFFF } else b) ∧
      (∀ j, j < 8 → ∃ t, exec (.spcWrite k j v) s = .next t ∧ coreOnly k (fun c => { c with ctl := { c.ctl with samples := [] } }) s t ∧
        ∀ n, Tbl.get ({} : Sample) (t.core k).ctl.samples n = if n = j then {} else Tbl.get {} c.ctl.samples n))

/-- R123: a YIELD of a group that is asked to stop parks its team at the YIELD. -/
def Obligations.YieldParks : Prop :=
  ∀ s h o, let i := Instr.yield h o
    canIssue i s = true → s.servedBy i ≠ 0 → s.grpOf.saving = true → o.imm.toNat % 128 ≤ s.tm.id.budget →
    ∃ t, exec i s = .next t ∧ onlyCore hideEvents s t ∧ isComplete s t ∧
      { t.tm with park := s.tm.park, live := s.tm.live, acc := s.tm.acc, regs := s.tm.regs, haz := s.tm.haz, fly := s.tm.fly
                  nextId := s.tm.nextId } = s.tm ∧
      t.tm.park = true ∧ t.tm.live = o.imm.toNat % 128 ∧ t.tm.acc = o.imm.getLsbD 7 ∧ t.tm.regs = { completed i 0 s with ycnt := 0 } ∧
      emitted 0x05 (o.imm.toNat % 128 * 2 ^ 57 + pcBits s.ipc) true s t

/-- R124, R377, R378, R381: TRAP and BRK write their record, clear RPM and put the team in WAITING for its resolution.
R124, R356, R385: HALT writes its record, ends the team, marks its task and the barriers of its group, and leaves RPM.
While a fault that the team met in its fault window is still to be raised, none of them issues.
The model's own choices in it: log 16, 17, 126. -/
def Obligations.StopsOfATeam : Prop :=
  ((∀ s h o, canIssue (.trap h o) s = true → s.servedBy (.trap h o) ≠ 0 → queueOpen s → s.tm.flt.win = none →
      ∃ t, exec (.trap h o) s = .next t ∧ stopsTeam 0x0E s t ∧
        faultTaken (.trap h o) 0x0E true false 0 (o.imm.zeroExtend 128) 0 s t) ∧
    (∀ s h o, canIssue (.brk h o) s = true → s.servedBy (.brk h o) ≠ 0 → queueOpen s → s.tm.flt.win = none →
      ∃ t, exec (.brk h o) s = .next t ∧ stopsTeam 0x0F s t ∧
        faultTaken (.brk h o) 0x0F true false 0 ((o.imm.extractLsb' 0 16).zeroExtend 128) 0 s t)) ∧
  (∀ s i, (match i with | .trap .. | .brk .. | .halt .. => True | _ => False) → canIssue i s = true → s.servedBy i ≠ 0 →
      s.tm.flt.win.isSome = true → exec i s = .next s) ∧
  (∀ s h o, canIssue (.halt h o) s = true → s.servedBy (.halt h o) ≠ 0 → s.tm.flt.win = none →
      ∃ t, exec (.halt h o) s = .next t ∧ t.tm.st = 4 ∧ t.tm.path = pathBehind (.halt h o) s ∧
        t.tm.regs.rpm = s.tm.regs.rpm ∧ t.tm.flt.pf = false ∧ t.tm.wait = none ∧ (t.task s.tm.id.tag).err = true ∧
        (∀ b, b < s.grpOf.nbar → 2 ≤ (t.nbar s.ck (s.grpOf.bbase + b)).stat) ∧
        { t.tm.regs with flags := [], tstat := 0, edge := 0 } = { s.tm.regs with flags := [], tstat := 0, edge := 0 } ∧
        (queueOpen s → (∀ d, d < 4 → d ≠ dieOfCore s.ck → ∀ r ∈ (s.die d).fq.recs, r.pend = true → s.recOfTeam s.ck s.slot r = false) →
          let q := (s.die (dieOfCore s.ck)).fq
          let w := teamRecordWord (.halt h o) 0x10 false 0 (o.c.zeroExtend 128) s.tm.regs.rpm s
          ∀ j, j < 64 → t.mem.byte (q.base + 64 * q.tail + j) = w.extractLsb' (8 * j) 8))

/-- R103, R381: an instruction whose encoding or operands are not legal, or whose team has not its role, takes the illegal-instruction
fault, with every lane it serves in RPM; while a fault that the team met in its fault window is still to be raised, it does not issue.
The model's own choices in it: log 13, 26, 126. -/
def Obligations.IllegalInstructionsFault : Prop :=
  ∀ s i, isEvent i = false → s.isGath = false → s.tm.st = 1 → s.tm.flt.replay = false → s.unitFree i = true →
    (instrInfo i).head.sig.toNat ≤ 12 →
    ((instrInfo i).legal s.tm.id.budget = false ∨ roleOk s.tm.id.role (instrInfo i).opc = false) →
    (s.tm.flt.win = none → queueOpen s →
      ∃ t, exec i s = .next t ∧ stopsTeam 0x01 s t ∧ faultTaken i 0x01 true true 0 0 (s.servedBy i) s t) ∧
    (s.tm.flt.win.isSome = true → exec i s = .next s)

/-- R59, R103, R125, R134: SRD and SWR of a privileged register, and ERET, by a team that is not privileged take the privilege fault,
whatever the guard; while a fault that the team met in its fault window is still to be raised, they do not issue.
The model's own choices in it: log 126. -/
def Obligations.PrivilegeFaults : Prop :=
  ∀ s i n, (match i with
      | .srd _ o => n = o.imm.toNat ∧ sysPriv n = true
      | .swr _ o => n = o.imm.toNat ∧ (n = 0x030 ∨ n = 0x031 ∨ sysPriv n = true)
      | .eret .. => n = 0
      | _ => False) →
    canIssue i s = true → s.tm.id.prv = false →
    (s.tm.flt.win = none → queueOpen s →
      ∃ t, exec i s = .next t ∧ stopsTeam 0x02 s t ∧ faultTaken i 0x02 true true 0 (BitVec.ofNat 128 n) (s.servedBy i) s t) ∧
    (s.tm.flt.win.isSome = true → exec i s = .next s)

/-- R125: an ERET that names no pending record, or whose operands are not in order, or with action 3, leaves everything unchanged.
R121, R125, R382, R384: ERET with action 0 or 1 on the record of another team makes it READY, to replay the lanes of RPM or to go on behind
the instruction with RPM clear, and clears PEND of the record in memory.
R125, R308, R384, R385: action 2 halts the team, ends a gatherer, and gives up a copy or a drain; action 0 resumes a gatherer at its
instruction, a copy and a drain, action 1 a gatherer behind it; copies and drains ignore action 1. The record of a team that is not there,
being saved, keeps its action for the restore (R383).
The model's own choices in it: log 12, 13, 29, 67, 129. -/
def Obligations.EretResolves : Prop :=
  (∀ s h o, let i := Instr.eret h o
      canIssue i s = true → s.servedBy i ≠ 0 → s.tm.id.prv = true →
      (eretTarget s o = none ∨ (∃ r, eretTarget s o = some (r, 3))) →
      ∃ t, exec i s = .next t ∧ pathDone i (inLine s) (completed i 0 s) s t) ∧
  (∀ s h o r b, let i := Instr.eret h o
      canIssue i s = true → s.servedBy i ≠ 0 → s.tm.id.prv = true → eretTarget s o = some (r, b) → b ≤ 1 → r.agent = 0 →
      let d := (s.rs o.a.toNat).toNat / 2 ^ 32
      let v := s.team r.core r.unit
      (r.core, r.unit) ≠ (s.ck, s.slot) → v.id.gref = r.gref → v.st ≠ 0 → v.flt.pf = true →
      (regionOf s.ddr (recordByte s d r)).plain = true →
      ∃ t, exec i s = .next t ∧ keepsTeam s t ∧ isComplete s t ∧ advances s t ∧ t.tm.regs = completed i 0 s ∧
        (let u := t.team r.core r.unit
         u.st = 1 ∧ u.sched.ref = (s.die (dieOfCore r.core)).clk.cyc.toNat ∧ u.flt.pf = false ∧ u.flt.replay = (decide (b = 0) && !v.flt.unissued) ∧
           u.regs = { v.regs with rpm := if b = 1 ∨ v.flt.unissued = true then 0 else v.regs.rpm } ∧ u.path = resumedPath v b ∧ u.fly = v.fly) ∧
        pendCleared d r s t) ∧
  (∀ s h o r b, let i := Instr.eret h o
      canIssue i s = true → s.servedBy i ≠ 0 → s.tm.id.prv = true → eretTarget s o = some (r, b) → b ≤ 2 →
      let d := (s.rs o.a.toNat).toNat / 2 ^ 32
      (regionOf s.ddr (recordByte s d r)).plain = true →
      ∃ t, exec i s = .next t ∧
        recordActs d r b ((s.rs o.a.toNat).toNat % 2 ^ 32) s t ∧
        (r.agent = 0 → (r.core, r.unit) = (s.ck, s.slot) → s.tm.id.gref = r.gref → s.tm.flt.pf = true → b ≤ 1 →
          t.tm.st = 1 ∧ t.tm.flt.pf = false ∧ pendCleared d r s t) ∧
        (2 ≤ r.agent → b = 1 → pathDone i (inLine s) (completed i 0 s) s t))

/-- R353, R357, R358: BARV and BDROP arrive, and return STAT of an abandoned barrier; BEXP adds to EXP.
R355, R356, R358: BWAIT ends at once with STAT, or with 0 when the phase differs from its parity; else its team waits.
R353, R356, R358: BSYNC arrives and waits on the phase it arrived in, or goes on with STAT when the barrier is abandoned.
R353: a phase whose arrivals are all made and whose bytes have all landed ends in the next core cycle, after the changes of the last.
The model's own choices in it: log 14, 52, 113. -/
def Obligations.NamedBarriers : Prop :=
  ((∀ s h o (drop : Bool), let i := if drop then Instr.bdrop h o else Instr.barv h o
      canIssue i s = true → s.servedBy i ≠ 0 → o.obj.toNat < s.grpOf.nbar → settled s (.s o.d.toNat) 0 →
      let n := s.grpOf.bbase + o.obj.toNat
      let b := s.nbar s.ck n
      (∀ c, arrivalCount b s.slot o.count.toNat = some c →
        ∃ t, exec i s = .next t ∧ barOnly n { afterArrival b s.slot c drop.toNat with who := s.slot } s t ∧ keepsTeam s t ∧ advancesFresh s t ∧
          inFlight i 0 s t ∧ putsScalar i o.d.toNat (if b.phase then 256 else 0) s t) ∧
      (b.stat ≠ 0 → ∃ t, exec i s = .next t ∧ barOnly n { b with who := s.slot } s t ∧ keepsTeam s t ∧ advances s t ∧ inFlight i 0 s t ∧
        putsScalar i o.d.toNat (BitVec.ofNat 64 (b.stat + if b.phase then 256 else 0)) s t)) ∧
    (∀ s h o, let i := Instr.bexp h o
      canIssue i s = true → s.servedBy i ≠ 0 → o.obj.toNat < s.grpOf.nbar →
      let n := s.grpOf.bbase + o.obj.toNat
      let b := s.nbar s.ck n
      let e := (b.exp + o.count.toNat * 2 ^ o.t.toNat) % 2 ^ 24
      ∃ t, exec i s = .next t ∧ keepsTeam s t ∧ advances s t ∧ inFlight i 0 s t ∧ t.tm.regs = signalled i s ∧
        barOnly n (if b.stat ≠ 0 then b else { b with exp := e, who := s.slot }) s t)) ∧
  (∀ s h o, let i := Instr.bwait h o
      canIssue i s = true → s.servedBy i ≠ 0 → o.obj.toNat < s.grpOf.nbar → settled s (.s o.d.toNat) 0 → s.tm.arrd = false →
      let n := s.grpOf.bbase + o.obj.toNat
      let b := s.nbar s.ck n
      ∃ t, exec i s = .next t ∧ barOnly n b s t ∧
        (if b.stat ≠ 0 ∨ b.phase ≠ o.count.getLsbD 0 then
          keepsTeam s t ∧ advances s t ∧ inFlight i 0 s t ∧ putsScalar i o.d.toNat (BitVec.ofNat 64 b.stat) s t
        else waitsFor i (.named o.obj.toNat (o.count.getLsbD 0)) o.d.toNat o.t.toNat false s t)) ∧
  (∀ s h o, let i := Instr.bsync h o
      canIssue i s = true → s.servedBy i ≠ 0 → o.obj.toNat < s.grpOf.nbar → settled s (.s o.d.toNat) 0 → s.tm.arrd = false →
      let n := s.grpOf.bbase + o.obj.toNat
      let b := s.nbar s.ck n
      (∀ c, arrivalCount b s.slot o.count.toNat = some c →
        ∃ t, exec i s = .next t ∧ barOnly n { afterArrival b s.slot c 0 with who := s.slot } s t ∧
          waitsFor i (.named o.obj.toNat b.phase) o.d.toNat o.t.toNat true s t) ∧
      (b.stat ≠ 0 → ∃ t, exec i s = .next t ∧ barOnly n { b with who := s.slot } s t ∧ keepsTeam s t ∧ advances s t ∧ inFlight i 0 s t ∧
        putsScalar i o.d.toNat (BitVec.ofNat 64 b.stat) s t)) ∧
  (∀ s d k g m, cyclePasses s d → k < 192 → dieOfCore k = d → s.stopped k = false → g ∈ (s.core k).groups → m < g.2.nbar →
      let n := g.2.bbase + m
      phaseOver (s.nbar k n) → ∃ t, exec (.coreCycle d) s = .next t ∧ t.nbar k n = nextPhase (s.nbar k n))

/-- R361, R362: CBAR arrives at a barrier of its cluster and waits, or returns STAT of one that is abandoned; a phase whose arrivals are all
made ends in the next core cycle (R353). GBAR arrives at a barrier that this device counts, where the count of the phase is given by its
arrivals, and goes on when it is the last, else waits.
R417: an arrival at a barrier that another device counts is sent to that device, the end of a phase here to every other member, on VC 5.
The model's own choices in it: log 14, 52, 53. -/
def Obligations.WideBarriers : Prop :=
  (∀ s h o c, let i := Instr.cbar h o
    let k := o.obj.toNat
    let b := s.cbar s.ck k
    canIssue i s = true → s.servedBy i ≠ 0 → s.grpOf.hdr.getLsbD (325 + k) = true → recBits s.grpOf.hdr 57 3 ≠ 0 →
    settled s (.s o.d.toNat) 0 → s.tm.arrd = false → arrivalCount b s.tm.id.wideKey 0 = some c →
    ∃ t, exec i s = .next t ∧ t.cbar s.ck k = afterArrival b s.tm.id.wideKey c 0 ∧ t.mem = s.mem ∧
      (∀ m, m ≠ cbKey s.ck k → Tbl.get ({} : Bar) (t.die (dieOfCore s.ck)).cbars m = Tbl.get {} (s.die (dieOfCore s.ck)).cbars m) ∧
      { t with cores := s.cores, dies := s.dies } = s ∧ sameCores hideCache s t ∧
      waitsFor i (.cluster k b.phase) o.d.toNat o.t.toNat true s t) ∧
  (∀ s h o, let i := Instr.cbar h o
    let b := s.cbar s.ck o.obj.toNat
    canIssue i s = true → s.servedBy i ≠ 0 → s.grpOf.hdr.getLsbD (325 + o.obj.toNat) = true → recBits s.grpOf.hdr 57 3 ≠ 0 →
    settled s (.s o.d.toNat) 0 → s.tm.arrd = false → b.stat ≠ 0 →
    ∃ t, exec i s = .next t ∧ { t with cores := s.cores, dies := s.dies } = s ∧ sameCores hideEvents s t ∧
      (∀ m, Tbl.get ({} : Bar) (t.die (dieOfCore s.ck)).cbars m = Tbl.get {} (s.die (dieOfCore s.ck)).cbars m) ∧
      keepsTeam s t ∧ advances s t ∧ inFlight i 0 s t ∧ putsScalar i o.d.toNat (BitVec.ofNat 64 b.stat) s t) ∧
  (∀ s d, cyclePasses s d → (s.die d).clk.counted = false → ∃ t, exec (.coreCycle d) s = .next t ∧
    ∀ e ∈ (s.die d).cbars, phaseOver e.2 → (e.1, nextPhase e.2) ∈ (t.die d).cbars) ∧
  (∀ s h o c, let i := Instr.gbar h o
    let k := o.obj.toNat
    let b := s.gridBar k
    canIssue i s = true → s.servedBy i ≠ 0 → s.grpOf.hdr.getLsbD (124 + k) = true → s.countsGrid k = true →
    settled s (.s o.d.toNat) 0 → s.tm.arrd = false → arrivalCount b s.tm.id.wideKey o.count.toNat = some c →
    ∃ t, exec i s = .next t ∧ { t with cores := s.cores, io := s.io, ports := s.ports } = s ∧ { t.io with grids := s.io.grids } = s.io ∧
      (∀ m, m ≠ k → t.gridBar m = s.gridBar m) ∧ sameCores hideCache s t ∧
      t.gridBar k = (if b.arr + 1 = c ∧ b.exp = 0 then { b with phase := !b.phase, arr := 0, arrm := [], count := 0, last := c }
        else { b with count := c, arr := b.arr + 1, arrm := insertAsc s.tm.id.wideKey b.arrm }) ∧
      gridSays k (if b.arr + 1 = c ∧ b.exp = 0 then (gridMembers s k).filter (fun d => d != s.io.domidx) else []) [1, 0] s t ∧
      (if b.arr + 1 = c ∧ b.exp = 0 then keepsTeam s t ∧ advancesFresh s t ∧ inFlight i 0 s t ∧ putsScalar i o.d.toNat 0 s t
       else waitsFor i (.grid k b.phase) o.d.toNat o.t.toNat true s t)) ∧
  (∀ s h o, let i := Instr.gbar h o
    let k := o.obj.toNat
    let b := s.gridBar k
    canIssue i s = true → s.servedBy i ≠ 0 → s.grpOf.hdr.getLsbD (124 + k) = true → s.tm.arrd = false → s.countsGrid k = false →
    b.stat = 0 → s.tm.id.wideKey ∉ b.arrm → (b.count = 0 ∨ o.count.toNat = 0 ∨ o.count.toNat = b.count) →
    ∃ t, exec i s = .next t ∧ { t with cores := s.cores, io := s.io, ports := s.ports } = s ∧ { t.io with grids := s.io.grids } = s.io ∧
      (∀ m, m ≠ k → t.gridBar m = s.gridBar m) ∧ sameCores hideCache s t ∧
      t.gridBar k = { b with count := if b.count = 0 then o.count.toNat else b.count, arrm := insertAsc s.tm.id.wideKey b.arrm } ∧
      gridSays k [s.gridCounter k] [0, o.count.toNat] s t ∧ waitsFor i (.grid k b.phase) o.d.toNat o.t.toNat true s t)

/-- R364 to R368: DCSET, DCADD and DCWAIT on a counter of the team's tenant.
The model's own choices in it: log 14. -/
def Obligations.DependencyCounters : Prop :=
  (∀ s h o, let i := Instr.dcset h o
    let x := (s.rs o.a.toNat).toNat
    canIssue i s = true → s.servedBy i ≠ 0 → x < 4096 → (s.dc x).owner = s.tm.id.tenant →
    ∃ t, exec i s = .next t ∧ { t with cores := s.cores, dies := s.dies } = s ∧ keepsTeam s t ∧ advancesFresh s t ∧ inFlight i 0 s t ∧
      t.tm.regs = signalled i s ∧ sameCores id s t ∧
      ∀ y, t.dc y = if y = x then { s.dc x with val := (s.rs o.d.toNat).truncate 32, err := false } else s.dc y) ∧
  (∀ s h o, let i := Instr.dcadd h o
    let x := (s.rs o.a.toNat).toNat
    canIssue i s = true → s.servedBy i ≠ 0 → x < 4096 → (s.dc x).owner = s.tm.id.tenant → settled s (.s o.d.toNat) 0 →
    ∃ t, exec i s = .next t ∧ { t with cores := s.cores, dies := s.dies } = s ∧ keepsTeam s t ∧ advancesFresh s t ∧ inFlight i 0 s t ∧
      putsScalar i o.d.toNat (BitVec.ofNat 64 ((s.dc x).val.toNat + if (s.dc x).err then 2 ^ 32 else 0)) s t ∧
      sameCores id s t ∧
      ∀ y, t.dc y = if y = x then { s.dc x with val := (s.dc x).val + o.imm.signExtend 32 } else s.dc y) ∧
  (∀ s h o, let i := Instr.dcwait h o
    let x := (o.count.toNat + (s.rs o.obj.toNat).toNat) % 4096
    canIssue i s = true → s.servedBy i ≠ 0 → (s.dc x).owner = s.tm.id.tenant → settled s (.s o.d.toNat) 0 → s.tm.arrd = false →
    ∃ t, exec i s = .next t ∧ { t with cores := s.cores } = s ∧ sameCores hideCache s t ∧
      (if (s.dc x).val = 0 then keepsTeam s t ∧ advances s t ∧ inFlight i 0 s t ∧
        putsScalar i o.d.toNat (if (s.dc x).err then 4 else 0) s t
       else waitsFor i (.counter x) o.d.toNat o.t.toNat false s t))

/-- R297, R300, R302: ENQ to a queue of the team's tenant writes the record with the queue's class and tenant at TAIL, or says that the
queue is full or not enabled.
R262, R297, R303: DEQ takes the record at HEAD of a pull queue of the team's tenant into the scratchpad, with an acquire that lets every RC
line go, or says that there is none or that the queue gives none.
The model's own choices in it: log 62, 63. -/
def Obligations.TaskQueueRecords : Prop :=
  (∀ s h o, let i := Instr.enq h o
      let off := (s.rs o.a.toNat).toNat
      let q := (s.rs o.b.toNat).toNat
      let bs := s.grpOf.sBytes s.ck off 64
      let rd := s.seeBytes s.ck 0 bs
      let Q := s.tq q
      let st := if Q.en = false then 2 else if Q.count = Q.size then 1 else 0
      let rec_ := BitVec.ofNat 512 (leNat rd.1)
      let put : BitVec 512 := (rec_ &&& ~~~(BitVec.ofNat 512 (1023 * 2 ^ 345))) |||
        BitVec.ofNat 512 ((Q.cls % 4) * 2 ^ 345 + (Q.tenant % 256) * 2 ^ 347)
      canIssue i s = true → s.servedBy i ≠ 0 → off % 64 = 0 → q ≤ 255 → off + 64 ≤ s.grpOf.size → Q.tenant = s.tm.id.tenant →
      bs.any s.guarded = false → rd.2 = false → settled s (.s o.d.toNat) 0 → (regionOf s.ddr (Q.slot Q.tail)).plain = true →
      ∃ t, exec i s = .next t ∧ { t with mem := s.mem, cores := s.cores, dies := s.dies } = s ∧ keepsTeam s t ∧ advancesFresh s t ∧
        inFlight i 0 s t ∧ putsScalar i o.d.toNat (BitVec.ofNat 64 st) s t ∧
        sameCores hideEvents s t ∧
        (t.tq q).tail = (if st = 0 then Q.tail + 1 else Q.tail) ∧ (t.tq q).head = Q.head ∧ (∀ y, y ≠ q → t.tq y = s.tq y) ∧
        (∀ j, j < 64 → st = 0 → t.mem.byte (Q.slot Q.tail + j) = put.extractLsb' (8 * j) 8) ∧
        (∀ a, (st = 0 → a < Q.slot Q.tail ∨ Q.slot Q.tail + 64 ≤ a) → t.mem.byte a = s.mem.byte a)) ∧
  (∀ s h o, let i := Instr.deq h o
      let off := (s.rs o.a.toNat).toNat
      let q := (s.rs o.b.toNat).toNat
      let bs := s.grpOf.sBytes s.ck off 64
      let Q := s.tq q
      let st := if Q.pull = false ∨ Q.en = false then 2 else if Q.count = 0 then 1 else 0
      let pa := winBase s.ck + (s.grpOf.base + off)
      canIssue i s = true → s.servedBy i ≠ 0 → off % 64 = 0 → q ≤ 255 → off + 64 ≤ s.grpOf.size → Q.tenant = s.tm.id.tenant →
      bs.any s.guarded = false → (st = 0 → s.mem.unc (Q.slot Q.head) 64 = false) → settled s (.s o.d.toNat) 0 →
      (∀ j, j < 64 → ∃ k w, regionOf s.ddr (pa + j) = .scratch k w) →
      ∃ t, exec i s = .next t ∧ { t with mem := s.mem, cores := s.cores, dies := s.dies } = s ∧ keepsTeam s t ∧ advances s t ∧
        inFlight i 0 s t ∧ putsScalar i o.d.toNat (BitVec.ofNat 64 st) s t ∧
        sameCores hideCache s t ∧ (st = 0 → ∀ e ∈ t.cr.tabs.l1, e ∈ s.cr.tabs.l1 ∧ e.2.tag ≠ 1) ∧
        (t.tq q).head = (if st = 0 then Q.head + 1 else Q.head) ∧ (t.tq q).tail = Q.tail ∧ (∀ y, y ≠ q → t.tq y = s.tq y) ∧
        (∀ j, j < 64 → st = 0 → t.mem.byte (pa + j) = s.mem.byte (Q.slot Q.head + j)) ∧
        (∀ a, (st = 0 → a < pa ∨ pa + 64 ≤ a) → t.mem.byte a = s.mem.byte a))

/-- R307, R310, R311: QPOP and QPEEK give the served lanes the elements at HEAD in ascending lane order, as many as there are when the
queue is closed, and wait when there are too few or another team waits there already; QCW.rst empties a queue.
The model's own choices in it: log 14, 65. -/
def Obligations.AccessQueuePops : Prop :=
  (∀ s h o (peek : Bool), let i := if peek then Instr.qpeek h o else Instr.qpop h o
    let q := o.c.toNat
    let w := s.aq q
    let ls := s.lanesBy i
    canIssue i s = true → qDlog w ≠ 0 → ls.length ≤ 2 ^ qDlog w → o.d.toNat + qEsize w / 8 ≤ s.tm.id.budget →
    settled s (.s o.b.toNat) 0 →
    (∀ r l, r < qEsize w / 8 → l ∈ ls → settled s (.v (o.d.toNat + r)) l) →
    (∀ n, qServes w ls.length = some n → (ls = [] ∨ s.poppers s.ck s.tm.id.grp q = []) → s.popFree q n = true →
      (∀ m b, m < n → b ∈ s.aqBytes w (qHead w + m) → ∃ k o, regionOf s.ddr b.pa = .scratch k o) →
      let st := if n = ls.length then 0 else if qPflt w then 4 else 2
      ∃ t, exec i s = .next t ∧ { t with cores := s.cores } = s ∧ sameCores hideQueues s t ∧ keepsTeam s t ∧ advances s t ∧ inFlight i 0 s t ∧
        { t.tm.regs with s := s.tm.regs.s, v := s.tm.regs.v } = signalled i s ∧
        (∀ r, Tbl.get 0 t.tm.regs.s r = if r = o.b.toNat ∧ r ≠ 0 then BitVec.ofNat 64 (n * 2 ^ 32 + st) else Tbl.get 0 s.tm.regs.s r) ∧
        (∀ r l, l < 1024 → Tbl.get ({} : VCell) t.tm.regs.v (1024 * r + l) =
          if o.d.toNat ≤ r ∧ r < o.d.toNat + qEsize w / 8 ∧ l ∈ ls.take n then popCell s q l ls (r - o.d.toNat)
          else Tbl.get {} s.tm.regs.v (1024 * r + l)) ∧
        qHead (t.aq q) = (if peek then qHead w else (qHead w + n) % 2 ^ 16) ∧ qTail (t.aq q) = qTail w) ∧
    ((qServes w ls.length = none ∨ (ls ≠ [] ∧ s.poppers s.ck s.tm.id.grp q ≠ [])) → s.tm.arrd = false →
      ∃ t, exec i s = .next t ∧ onlyTeam s t ∧ waitsFor i (.pop peek q o.d.toNat o.b.toNat (maskOf ls)) o.b.toNat 15 false s t)) ∧
  (∀ s h o, let i := Instr.qcwRst h o
    let q := o.c.toNat - 8
    canIssue i s = true → s.servedBy i ≠ 0 → qDlog (s.aq q) ≠ 0 →
    ∃ t, exec i s = .next t ∧ { t with cores := s.cores } = s ∧ sameCores hideQueues s t ∧ keepsTeam s t ∧ advances s t ∧
      inFlight i 0 s t ∧ t.tm.regs = signalled i s ∧ qHead (t.aq q) = 0 ∧ qTail (t.aq q) = 0 ∧ qClosed (t.aq q) = false ∧ qPflt (t.aq q) = false ∧
      qBase (t.aq q) = qBase (s.aq q) ∧ qDlog (t.aq q) = qDlog (s.aq q) ∧ qEsize (t.aq q) = qEsize (s.aq q))

/-- R274 to R277: LD and LDA read each lane's place, little-endian into the low bits with the bits above zero, or decode an element of a
scaled page; the poison bit says whether the data was uncorrectable.
The model's own choices in it: log 7, 35, 102. -/
def Obligations.LoadsReadMemory : Prop :=
  ∀ s h o (acq : Bool), let i := if acq then Instr.lda h o else Instr.ld h o
    canIssue i s = true → cleanIn s i [o.a.toNat] = true → (∀ l ∈ s.lanesBy i, settled s (.v o.d.toNat) l) → unheld s →
    (∀ l ∈ s.lanesBy i, ∃ c, loadCheck s o acq l = .ok c ∧ (c.scaled = 0 → readable s c) ∧
      ∀ e ∈ loadElems s (laneEa s o l) c, quiet s e.reach) →
    ∃ t, exec i s = .next t ∧ accessFrame s t ∧ keepsTeam s t ∧ advances s t ∧
      inFlight i (((s.lanesBy i).flatMap (fun l => match loadCheck s o acq l with
        | .ok c => (loadElems s (laneEa s o l) c).map (fun e => (tileRead s o.ty.toNat e).2.1)
        | .error _ => [])).foldl (· ||| ·) 0) s t ∧
      { t.tm.regs with v := s.tm.regs.v } = signalled i s ∧
      putsLanes o.d.toNat (s.lanesBy i) (fun l x => ∀ c, loadCheck s o acq l = .ok c → c.scaled ≠ 0 ∨ fresh s i o.hint.toNat l c →
        x = loadCell s o.ty.toNat (laneEa s o l) c) s t

/-- R274 to R276: ST and STL write the low bytes of each lane's data at its place; where lanes overlap the highest lane's byte stays, and
no other byte of memory changes.
The model's own choices in it: log 27, 35. -/
def Obligations.StoresWriteMemory : Prop :=
  ∀ s h o (rel : Bool), let i := if rel then Instr.stl h o else Instr.st h o
    canIssue i s = true → cleanIn s i [o.a.toNat, o.d.toNat] = true → unheld s →
    (∀ l ∈ s.lanesBy i, ∃ c, storeCheck s o rel l = .ok c ∧ ∀ b ∈ c.bytes, storable s b = true) →
    let ps := (s.lanesBy i).flatMap (storePairs s o rel)
    ∃ t, exec i s = .next t ∧ storeFrame s t ∧ keepsTeam s t ∧ advancesIf (s.lanesBy i ≠ []) s t ∧ inFlight i 0 s t ∧ t.tm.regs = signalled i s ∧
      memReads (fun a => (storedAt ps a).getD (plainByte s a)) s t ∧
      (∀ x ∈ t.io.hostOut, x ∈ s.io.hostOut ∨ ∃ p ∈ ps, p.1.dev = none ∧ regionOf s.ddr p.1.pa = .host x.1 ∧ p.2 = x.2)

/-- R243, R280, R281: ATOM in memory of this device: lane after lane the old value returns and the new value takes its place.
The model's own choices in it: log 27, 35. -/
def Obligations.AtomicsUpdateMemory : Prop :=
  ∀ s h o, let i := Instr.atom h o
    let w := tyWidth o.ty.toNat
    let srcs := [o.a.toNat, o.d.toNat] ++ (if o.b.toNat = 7 ∧ w = 64 then [o.d.toNat + 1] else [])
    canIssue i s = true → (o.b.toNat = 7 → w = 64 → o.d.toNat + 1 < s.tm.id.budget) → cleanIn s i srcs = true →
    (∀ l ∈ s.lanesBy i, settled s (.v o.d.toNat) l) → unheld s →
    (∀ l ∈ s.lanesBy i, ∃ c, atomCheck s o l = .ok c ∧
      ∀ b ∈ c.bytes, b.dev = none ∧ (regionOf s.ddr b.pa).plain = true ∧ s.guarded b = false ∧ s.mem.isBad b.pa = false) →
    let r := atomRun s o (s.lanesBy i) (plainByte s)
    ∃ t, exec i s = .next t ∧ storeFrame s t ∧ keepsTeam s t ∧ advancesIf (s.lanesBy i ≠ []) s t ∧ inFlight i r.2.2 s t ∧
      { t.tm.regs with v := s.tm.regs.v } = signalled i s ∧ memReads r.1 s t ∧
      putsLanes o.d.toNat (s.lanesBy i) (fun l x => ∀ e ∈ r.2.1, e.1 = l → x = { val := BitVec.ofNat 64 e.2, pz := false }) s t

/-- R278, R279: LDT and LDTT read elements of a scaled page by matrix coordinates; STT writes one whole tile with its entry, SEQ one more. -/
def Obligations.ScaledTileAccess : Prop :=
  (∀ s h o (tr : Bool) leaf, let i := if tr then Instr.ldtt h o else Instr.ldt h o
    let n := 64 / tyWidth o.ty.toNat
    canIssue i s = true → cleanIn s i [o.a.toNat] = true → (∀ l ∈ s.lanesBy i, settled s (.v o.d.toNat) l) → unheld s →
    ldtPage s o leaf → ldtOk s i o tr leaf →
    (∀ l ∈ s.lanesBy i, ∀ k, k < n → let e := matElem s leaf (ldtAt s o tr l k).1 (ldtAt s o tr l k).2
      s.placeErr s.tm.id.prv false e.reach = none ∧ quiet s e.reach) →
    ∃ t, exec i s = .next t ∧ accessFrame s t ∧ keepsTeam s t ∧ advances s t ∧
      inFlight i (((s.lanesBy i).flatMap (fun l => (List.range n).map (fun k => (ldtRead s o tr leaf l k).2.1))).foldl (· ||| ·) 0) s t ∧
      { t.tm.regs with v := s.tm.regs.v } = signalled i s ∧
      putsLanes o.d.toNat (s.lanesBy i) (fun l x => x.pz = (List.range n).any (fun k => (ldtRead s o tr leaf l k).2.2) ∧
        ∀ k, k < n → sub (tyWidth o.ty.toNat) k x.val.toNat = (ldtRead s o tr leaf l k).1 % 2 ^ tyWidth o.ty.toNat) s t) ∧
  (∀ s h o leaf, let i := Instr.stt h o
    let ty := o.ty.toNat
    let ea := (s.rs o.a.toNat).toNat
    let eb := (s.rs o.b.toNat).toNat
    let sz := payloadBytes (pteFmt leaf)
    let pay := pteAddr leaf + ea % 65536 / sz * sz
    let ent := pteSframe leaf + 16 * (ea % 65536 / sz)
    let xs := (List.range 256).map (fun e => widen ty (teamElem s (sttCyc s ty eb e) ty o.d.toNat (eb + e)))
    let tile := formTile xs (pteFmt leaf) (s.nextSeq none ent)
    canIssue i s = true → s.servedBy i ≠ 0 → s.translate s.ck s.tm.id.tenant ea false true false = .ok leaf → pteFmt leaf ≠ 0 →
    s.leafDev leaf = none → ea % 65536 % sz = 0 → eb % 256 = 0 → eb + 256 ≤ teamWidth s ty →
    (∀ e, e < 256 → (s.rvAt (sttCyc s ty eb e) o.d.toNat ((eb + e) / (64 / tyWidth ty))).pz = false) → unheld s →
    (∀ j, j < sz → s.guarded { dev := none, pa := pay + j } = false) → (∀ j, j < 16 → s.guarded { dev := none, pa := ent + j } = false) →
    pteMalformed s.ddr leaf 3 = false → (∀ j, j < 16 → (regionOf s.ddr (ent + j)).plain = true ∧ (ent + j < pay ∨ pay + sz ≤ ent + j)) →
    (∀ j, j < sz → (regionOf s.ddr (pay + j)).plain = true) →
    ∃ t, exec i s = .next t ∧ { t with mem := s.mem, cores := s.cores, dies := s.dies, io := s.io, ports := s.ports } = s ∧
      sameCores hideAccess s t ∧ keepsTeam s t ∧ advancesFresh s t ∧ t.tm.regs = signalled i s ∧
      inFlight i (tile.2.2 ||| (if (List.range 256).any (fun e => (decodeFp ty (teamElem s (sttCyc s ty eb e) ty o.d.toNat (eb + e))).isSig) then 16 else 0)) s t ∧
      memReads (fun a => if pay ≤ a ∧ a < pay + sz then tile.1.getD (a - pay) 0
        else if ent ≤ a ∧ a < ent + 16 then BitVec.ofNat 8 (tile.2.1 / 256 ^ (a - ent)) else plainByte s a) s t)

/-- R282 to R284: FENCE is held in flight until it completes, with the scope of its acquire part; CINV and PREF change nothing but caches.
The model's own choices in it: log 34, 35. -/
def Obligations.FencesAndCaches : Prop :=
  (∀ s h o, let i := Instr.fence h o
    canIssue i s = true → s.servedBy i ≠ 0 →
    ∃ t, exec i s = .next t ∧ onlyTeam s t ∧ keepsTeam s t ∧ advances s t ∧ t.tm.regs = signalled i s ∧ t.tm.nextId = s.tm.nextId + 1 ∧
      t.tm.fly = { entryOf i 0 s with acq := if o.order = 1 ∨ o.order = 3 then o.scope.toNat + 1 else 0 } :: s.tm.fly) ∧
  (∀ s h o, let i := Instr.cinv h o
    let all := decide (2 ≤ o.d.toNat)
    canIssue i s = true → s.servedBy i ≠ 0 → (all = true ∨ (s.rs o.b.toNat).toNat ≤ 2 ^ 32) →
    ∃ t, exec i s = .next t ∧ { t with cores := s.cores } = s ∧
      sameCores (fun c => { hideAccess c with tabs := { c.tabs with tlb := [], l1 := [], icache := [] } }) s t ∧
      keepsTeam s t ∧ advances s t ∧ inFlight i 0 s t ∧ t.tm.regs = signalled i s ∧
      (if o.d.toNat % 2 = 0 then t.cr.tabs.icache = s.cr.tabs.icache ∧ (all = true → t.cr.tabs.l1 = [])
       else t.cr.tabs.l1 = s.cr.tabs.l1 ∧ (all = true → t.cr.tabs.icache = [])) ∧
      (all = false → ∀ va leaf, (s.rs o.a.toNat).toNat / 16 * 16 ≤ va → va < (s.rs o.a.toNat).toNat + (s.rs o.b.toNat).toNat →
        s.translate s.ck s.tm.id.tenant va false false false = .ok leaf → s.leafDev leaf = none → va < 2 ^ 60 →
        Tbl.get ({} : Line) (if o.d.toNat % 2 = 0 then t.cr.tabs.l1 else t.cr.tabs.icache) (leafPa leaf (va / 16 * 16) / 128) = {})) ∧
  (∀ s h o, let i := Instr.pref h o
    canIssue i s = true →
    ∃ t, exec i s = .next t ∧ { t with cores := s.cores } = s ∧ sameCores hideAccess s t ∧ keepsTeam s t ∧ advances s t ∧ inFlight i 0 s t ∧
      t.tm.regs = signalled i s ∧ t.cr.tabs.tlb = s.cr.tabs.tlb ∧ (o.hint = 1 → t.cr.tabs.l1 = s.cr.tabs.l1))

/-- R174, R185 to R189: CINIT, CINIT.a, CDESC, CNEXT, CSEEK, CCOIT, CCRD, CPOS, CTEST, CMOV: where no walk meets a fault every lane's
results are written together, and MDF is set when a walk met malformed metadata.
The model's own choices in it: log 41, 42. -/
def Obligations.CursorWalks : Prop :=
  ∀ s i cs vs f (res : Nat → LaneRes), walkOf s i = some (cs, vs, f) → canIssue i s = true →
    (∀ l ∈ s.lanesBy i, ∀ c ∈ cs, (s.rc c l).pz = false) → cleanIn s i vs = true →
    (∀ l ∈ s.lanesBy i, walkEnd (f l) = .ok (res l) ∧ walkSettled s l (res l) ∧ walkQuiet s (f l)) →
    ∃ t, exec i s = .next t ∧ walkFrame s t ∧ keepsTeam s t ∧ advances s t ∧
      inFlight i (if (s.lanesBy i).any (fun l => walkMdfOf (f l)) then 512 else 0) s t ∧
      { t.tm.regs with c := s.tm.regs.c, p := s.tm.regs.p, v := s.tm.regs.v, rpm := s.tm.regs.rpm } = signalled i s ∧
      walkWrites (s.lanesBy i) res s t

/-- R168, R170, R185, R186: a dense fibre holds every coordinate below EXTENT at consecutive positions; the scan of a bitmap comes to the
next set bit, and to the bound when there is none; the next position of a coordinate list gives its coordinate. -/
def Obligations.FibresInOrder : Prop :=
  (∀ (s : State) e p, dKind (s.desc e) = 0 → p < dNfib (s.desc e) → dNfib (s.desc e) * dExt (s.desc e) ≤ 2 ^ 32 → 0 < dExt (s.desc e) →
    ∃ c, walked (s.descend e p) = (.ok c, {}) ∧ c.valid = true ∧ c.done = false ∧ c.coord = 0 ∧
      c.kind = 0 ∧ c.ldti = BitVec.ofNat 8 e ∧ c.pos.toNat = (p * dExt (s.desc e)) % 2 ^ 32 ∧
      c.ub.toNat = ((p + 1) * dExt (s.desc e)) % 2 ^ 32) ∧
  (∀ (s : State) (c : Cursor), c.kind = 0 → walked (s.stepCursor c) =
    (.ok (if c.coord.toNat + 1 < dExt (s.desc c.ldti.toNat) ∧ c.pos.toNat + 1 < boundOf c (s.desc c.ldti.toNat) then
        { c with coord := BitVec.ofNat 32 (c.coord.toNat + 1), pos := c.pos + 1 }
      else { c with done := true, coord := 0xFFFF_FFFF, pos := c.ub }), {})) ∧
  (∀ (s : State) e d (c : Cursor) base n x y, x ≤ y → y < x + n → base + y < boundOf c d → (∀ z, x ≤ z → z < y → metaBit s e d (base + z) = some false) →
    metaBit s e d (base + y) = some true →
    (walked (s.scanBits e d c base n x)).1 =
      .ok { c with coord := BitVec.ofNat 32 y, pos := BitVec.ofNat 32 (base + y) }) ∧
  (∀ (s : State) e d (c : Cursor) base n x, c.kind ≠ 5 → (∀ z, x ≤ z → z < x + n → base + z < boundOf c d → metaBit s e d (base + z) = some false) →
    (walked (s.scanBits e d c base n x)).1 = .ok { c with done := true, coord := 0xFFFF_FFFF, pos := c.ub }) ∧
  (∀ (s : State) (c : Cursor) x, c.kind = 1 → c.pos.toNat + 1 < c.ub.toNat → metaCrd s c.ldti.toNat (s.desc c.ldti.toNat) (c.pos.toNat + 1) = some x →
    x < dExt (s.desc c.ldti.toNat) → c.coord.toNat < x →
    (walked (s.stepCursor c)).1 = .ok { c with coord := BitVec.ofNat 32 x, pos := c.pos + 1 })

/-- R164, R172, R173, R183, R184, R348: LDTLD loads a well-formed descriptor and the group holds its entry; CHEAP names a heap of the
tenant for it; PTLD takes the pattern from lanes 0 to 7.
The model's own choices in it: log 23, 97. -/
def Obligations.TablesAreLoaded : Prop :=
  (∀ s h o c, let i := Instr.ldtld h o
    let a := (s.rs o.a.toNat).toNat
    let e := (s.rs o.b.toNat).toNat
    let x := s.seeBytes s.ck 0 c.bytes
    let old := Tbl.get {} s.cr.tabs.ldt e
    canIssue i s = true → s.servedBy i ≠ 0 → unheld s → a % 64 = 0 → e ≤ 255 →
    s.checkLane o.space a 64 {} = .ok c → c.bytes.length = 64 → readable s c → x.2 = false → dKind (leNat x.1) ≤ 5 → descOk (leNat x.1) = true →
    ∃ t, exec i s = .next t ∧ { t with cores := s.cores, dies := s.dies, io := s.io, ports := s.ports } = s ∧
      sameCores (fun k => { hideAccess k with tabs := { k.tabs with tlb := [], l1 := [], ldt := [], meta_ := [] } }) s t ∧
      (∀ d, { t.die d with tlb := [] } = { s.die d with tlb := [] }) ∧
      { t.io with ats := [], fnErrs := [], hostReqs := [] } = { s.io with ats := [], fnErrs := [], hostReqs := [] } ∧ keepsTeam s t ∧ advances s t ∧ t.tm.regs = signalled i s ∧
      t.tm.fly = { entryOf i 0 s with ldt := true } :: s.tm.fly ∧
      (∀ k, Tbl.get ({} : Ldt) t.cr.tabs.ldt k = if k = e then
        { old with img := BitVec.ofNat 512 (leNat x.1), lv := true, hv := false, hold := s.tm.id.grp } else Tbl.get {} s.cr.tabs.ldt k) ∧
      (∀ m ∈ t.cr.tabs.meta_, m ∈ s.cr.tabs.meta_ ∧ m.1 / 2 ^ 48 ≠ e)) ∧
  (∀ s h o, let i := Instr.cheap h o
    let e := (s.rs o.a.toNat).toNat
    let hp := 4 * dieOfCore s.ck + o.c.toNat % 4
    let x := s.mem.readLe (s.heapAddr hp) 16
    canIssue i s = true → s.servedBy i ≠ 0 → s.ldtHeld e = true → s.mem.unc (s.heapAddr hp) 16 = false → x.testBit 63 = true →
    natBits x 80 8 = s.tm.id.tenant →
    ∃ t, exec i s = .next t ∧ { t with cores := s.cores } = s ∧ sameCores (fun k => { hideEvents k with tabs := { k.tabs with ldt := [] } }) s t ∧
      keepsTeam s t ∧ advances s t ∧ t.tm.regs = signalled i s ∧ t.tm.fly = { entryOf i 0 s with ldt := true } :: s.tm.fly ∧
      (∀ k, Tbl.get ({} : Ldt) t.cr.tabs.ldt k = if k = e then { Tbl.get ({} : Ldt) s.cr.tabs.ldt e with hv := true, heap := hp }
        else Tbl.get {} s.cr.tabs.ldt k)) ∧
  (∀ s h o, let i := Instr.ptld h o
    canIssue i s = true → s.servedBy i ≠ 0 → (∀ l, l < 8 → (s.rvNow o.a.toNat l).pz = false) →
    ∃ t, exec i s = .next t ∧ { t with cores := s.cores } = s ∧ sameCores (fun k => { hideEvents k with tabs := { k.tabs with pats := [] } }) s t ∧
      keepsTeam s t ∧ advances s t ∧ t.tm.regs = completed i 0 s ∧ isComplete s t ∧
      (∀ k, k ≠ o.c.toNat → t.pat k = s.pat k) ∧ (t.pat o.c.toNat).lv = true ∧ (t.pat o.c.toNat).hold = s.tm.id.grp ∧
      (t.pat o.c.toNat).fresh = s.cyc + 8 ∧
      (∀ l, l < 8 → (t.pat o.c.toNat).img.extractLsb' (64 * l) 64 = (s.rvNow o.a.toNat l).val))

/-- R190: CVLD and CVST load and store the value at each lane's cursor as LD and ST do; a DONE lane loads zero and stores nothing.
R193 to R196, R198: in one lane, CAPP drops a zero, or writes the item into the chunk of its cursor, taking a chunk of the heap and
linking it when there is none to write; CCLOSE ends the chunk list and the cursor. CPREF completes with cache fills alone (R191).
R176: at a position that its fibre does not have a cursor stores nothing, and what CVLD gives there is a free value.
The model's own choices in it: log 27, 39, 44, 131. -/
def Obligations.ValuesAndAppends : Prop :=
  ((∀ s h o, let i := Instr.cvld h o
      canIssue i s = true → unheld s → (∀ l ∈ s.lanesBy i, settled s (.v o.d.toNat) l ∧ usable s (s.rc o.a.toNat l) false ∧
        ((s.rc o.a.toNat l).done = false → pastBound s (s.rc o.a.toNat l) = false → ∃ c, cvldCheck s o l = .ok c ∧
          (c.scaled = 0 → readable s c) ∧ ∀ e ∈ loadElems s (valueEa s o l) c, quiet s e.reach)) →
      ∃ t, exec i s = .next t ∧ accessFrame s t ∧ keepsTeam s t ∧ advances s t ∧ { t.tm.regs with v := s.tm.regs.v } = signalled i s ∧
        inFlight i (((s.lanesBy i).flatMap (fun l => if (s.rc o.a.toNat l).done || pastBound s (s.rc o.a.toNat l) then [] else match cvldCheck s o l with
          | .ok c => (loadElems s (valueEa s o l) c).map (fun e => (tileRead s o.ty.toNat e).2.1)
          | .error _ => [])).foldl (· ||| ·) 0) s t ∧
        putsLanes o.d.toNat (s.lanesBy i) (fun l x => if (s.rc o.a.toNat l).done then x = {}
          else if pastBound s (s.rc o.a.toNat l) then x = { val := Config.freeWord s.seq l } else
          ∀ c, cvldCheck s o l = .ok c → c.scaled ≠ 0 ∨ fresh s i o.hint.toNat l c → x = loadCell s o.ty.toNat (valueEa s o l) c) s t) ∧
    (∀ s h o, let i := Instr.cvst h o
      let ps := (s.lanesBy i).flatMap (cvstPairs s o)
      canIssue i s = true → unheld s → cleanIn s i [o.b.toNat] = true →
      (∀ l ∈ s.lanesBy i, usable s (s.rc o.a.toNat l) false ∧
        ((s.rc o.a.toNat l).done = false → pastBound s (s.rc o.a.toNat l) = false →
          ∃ c, cvstCheck s o l = .ok c ∧ ∀ b ∈ c.bytes, storable s b = true)) →
      ∃ t, exec i s = .next t ∧ storeFrame s t ∧ keepsTeam s t ∧
        advancesIf (∃ l ∈ s.lanesBy i, (s.rc o.a.toNat l).done = false ∧ pastBound s (s.rc o.a.toNat l) = false) s t ∧
        inFlight i 0 s t ∧ t.tm.regs = signalled i s ∧ memReads (fun a => (storedAt ps a).getD (plainByte s a)) s t) ∧
    (∀ s h o, let i := Instr.cpref h o
      canIssue i s = true → (∀ l ∈ s.lanesBy i, (s.rc o.a.toNat l).pz = false) →
      ∃ t, exec i s = .next t ∧ { t with cores := s.cores } = s ∧
        sameCores (fun c => { hideAccess c with tabs := { c.tabs with tlb := [], l1 := [], meta_ := [] } }) s t ∧ keepsTeam s t ∧
        advances s t ∧ inFlight i 0 s t ∧ t.tm.regs = signalled i s ∧ t.cr.tabs.tlb = s.cr.tabs.tlb)) ∧
  ((∀ s h o l head, let i := Instr.capp h o
      let c := s.rc o.d.toNat l
      let x := (s.rv o.a.toNat l).val
      let n := c.pos.toNat % 512
      let hp := (Tbl.get {} s.cr.tabs.ldt c.ldti.toNat).heap
      let new := s.chunkAddr (nextChunk s hp)
      let old := s.chunkAddr (c.pos.toNat / 512)
      let drop := !o.b.getLsbD 0 && valueZero o.ty.toNat (x.toNat / 2 ^ 32)
      let ws := if drop then [] else appendWrites s c x head
      canIssue i s = true → unheld s → s.lanesBy i = [l] → cleanIn s i [o.a.toNat] = true → usable s c true → settled s (.c o.d.toNat) l →
      (x.truncate 32).toNat < c.ub.toNat → (n = 0 ∨ c.coord.toNat < (x.truncate 32).toNat) → s.headGuarded c = false →
      (drop = false → n ≠ 0 → n ≠ 511 → ∀ j, j < 8 → ram s (old + 8 * (n + 1) + j)) →
      (drop = false → (n = 0 ∨ n = 511) → (Tbl.get {} s.cr.tabs.ldt c.ldti.toNat).hv = true ∧ heapOk s hp ∧ apart (s.heapAddr hp) 16 new 4096 ∧
        (n = 0 → headAt s c head ∧ apart (s.heapAddr hp) 16 head 4) ∧
        (n = 511 → apart (s.heapAddr hp) 16 old 8 ∧ c.pos.toNat / 512 / 2 ^ 19 % 16 = hp ∧ ∀ j, j < 8 → ram s (old + j))) →
      ∃ t, exec i s = .next t ∧ storeFrame s t ∧ keepsTeam s t ∧ advancesIf (drop = false) s t ∧ inFlight i 0 s t ∧
        { t.tm.regs with c := s.tm.regs.c } = signalled i s ∧ (∀ a, t.mem.byte a = applyWrites ws s.mem.byte a) ∧
        (∀ q m, q < 8 → Tbl.get ({} : Cursor) t.tm.regs.c (8 * m + q) = if q = o.d.toNat ∧ m = l ∧ drop = false then
          { c with coord := x.truncate 32
                   pos := if n ≠ 0 ∧ n ≠ 511 then c.pos + 1 else BitVec.ofNat 32 (nextChunk s hp * 512 + 1) }
          else Tbl.get {} s.tm.regs.c (8 * m + q))) ∧
    (∀ s h o l head, let i := Instr.cclose h o
      let c := s.rc o.d.toNat l
      let n := c.pos.toNat % 512
      let old := s.chunkAddr (c.pos.toNat / 512)
      let ws := if c.valid && c.app then [if n = 0 then (head, leBytes 4 0xFFFF_FFFF) else (old, leBytes 8 (n * 2 ^ 32 + 0xFFFF_FFFF))] else []
      canIssue i s = true → unheld s → s.lanesBy i = [l] → settled s (.c o.d.toNat) l → c.pz = false → c.kind.toNat < 6 → s.headGuarded c = false →
      (c.valid = true → c.app = true → usable s c true ∧ (n = 0 → headAt s c head) ∧ (n ≠ 0 → ∀ j, j < 8 → ram s (old + j))) →
      ∃ t, exec i s = .next t ∧ storeFrame s t ∧ keepsTeam s t ∧ advances s t ∧ inFlight i 0 s t ∧
        { t.tm.regs with c := s.tm.regs.c } = signalled i s ∧ (∀ a, t.mem.byte a = applyWrites ws s.mem.byte a) ∧
        (∀ q m, q < 8 → Tbl.get ({} : Cursor) t.tm.regs.c (8 * m + q) = if q = o.d.toNat ∧ m = l ∧ c.valid = true then
          { c with valid := false, app := false, done := true } else Tbl.get {} s.tm.regs.c (8 * m + q))))

/-- R166: TOPK and TOPKX put the first k of the served elements, ranked by value with ties in element order, into the output positions, where
those hold them all; output positions from k on keep what they held. -/
def Obligations.TopkRanksElements : Prop :=
  ∀ s h o (idx : Bool), let i := if idx then Instr.topkx h o else Instr.topk h o
    canIssue i s = true → cleanIn s i [o.a.toNat, o.d.toNat] = true → (∀ l ∈ s.lanesBy i, settled s (.v o.d.toNat) l) →
    (idx = true → (s.rs o.b.toNat).toNat ≤ 2 * (s.lanesBy i).length) → ranked s i o idx

/-- R245, R246, R286 to R289: CPY, CPYT and CPYG hand their command to the copy engine, behind a range-guard entry where the destination is
in the core's scratchpad, with the CPYI event.
R293: COLL hands its command to the collective engine, with the leaves of both ranges, when every page check passes.
The model's own choices in it: log 6, 54, 55. -/
def Obligations.EngineCommandsAreQueued : Prop :=
  (∀ s i c, copyCommand s i = some c → canIssue i s = true → s.lanesBy i ≠ [] → s.tm.path.stack = [] →
      (c.nb = true ∨ c.k < s.grpOf.nbar) → (c.dsp = true ∨ oneWindow (s.dstBytes s.ck s.grpOf c) = true) →
      (s.dstOwn c = true ∨ copyCover s c ≠ none → s.freeGuard s.ck ≠ none) →
      ∃ t, exec i s = .next t ∧ { t with cores := s.cores } = s ∧ sameCores hideCopies s t ∧ keepsTeam s t ∧ advancesFresh s t ∧
        inFlight i 0 s t ∧ t.tm.regs = signalled i s ∧ t.cr.copies = s.cr.copies ++ [guardedCopy s c] ∧ t.cr.nextCopy = s.cr.nextCopy + 1 ∧
        (∀ j, Tbl.get ({} : Guard) t.cr.tabs.guard j = guardAfter s c j) ∧
        emitted 0x0C (c.kind * 2 ^ 62 + c.k * 2 ^ 57 + c.nb.toNat * 2 ^ 56 + (if c.kind = 0 then c.total else 0) * 2 ^ 32
          + c.sd.toNat % 2 ^ 32) false s t) ∧
  (∀ s h o, let i := Instr.coll h o
      let b := s.rs o.b.toNat
      let op := o.c.toNat % 4
      let w := tyWidth o.ty.toNat / 8
      let count := (b.extractLsb' 0 32).toNat
      let head := (b.extractLsb' 32 8).toNat
      let n := (if op = 3 then count * (head + 2) else count) * w
      let a := (s.rs o.a.toNat).toNat
      let d := (s.rs o.d.toNat).toNat
      let x := s.ctxOf (b.extractLsb' 40 8).toNat
      let checks := s.pageChecks a n false ++ s.pageChecks d n true
      canIssue i s = true → s.lanesBy i ≠ [] → s.tm.path.stack = [] → b.extractLsb' 48 16 = 0 → count ≠ 0 →
      (op = 3 ↔ head ≠ 0) → (o.c.getLsbD 2 = true → op = 3) → a % w = 0 → d % w = 0 → (a = d ∨ a + n ≤ d ∨ d + n ≤ a) →
      x.testBit 255 = true → natBits x 247 8 = s.tm.id.tenant → (∀ r ∈ checks, ∃ p, r = .ok p) →
      ∃ t, exec i s = .next t ∧ { t with cores := s.cores, dies := s.dies } = s ∧ (∀ d, { t.die d with tlb := [] } = { s.die d with tlb := [] }) ∧
        sameCores (fun x => { hideCopies x with tabs := { x.tabs with guard := [], tlb := [] } }) s t ∧ keepsTeam s t ∧ advancesFresh s t ∧
        inFlight i 0 s t ∧ t.tm.regs = signalled i s ∧ t.cr.nextCopy = s.cr.nextCopy + 1 ∧ t.cr.tabs.guard = s.cr.tabs.guard ∧
        emitted 0x0C (3 * 2 ^ 62 + d % 2 ^ 32) false s t ∧
        ∃ leaves, checks = leaves.map Except.ok ∧ t.cr.copies = s.cr.copies ++
          [{ id := s.cr.nextCopy, iss := issuerOf s, kind := 3, sd := s.rs o.d.toNat, sa := s.rs o.a.toNat, sb := b, nb := true, total := n
             op := op, ty := o.ty.toNat, nrm := o.c.getLsbD 2, leaves := leaves, since := s.seq
             eng := s.ctxOf (b.extractLsb' 40 8).toNat % 2 }])

/-- R203, R208, R213, R215, R216, R218, R221, R228: WBLD, WBINV, AZERO, APROM, MMA, MMAS, ADRN, ARD, AWR put their command at the tail
of the crossing FIFO; WBLD marks its slot loading and WBINV its slot invalid at once.
The model's own choices in it: log 27. -/
def Obligations.MatrixCommandsAreQueued : Prop :=
  ∀ s i op, matCommand s i = some op → canIssue i s = true → s.tm.path.stack = [] →
    ∃ t, exec i s = .next t ∧ { t with cores := s.cores } = s ∧ sameCores hideMat s t ∧ keepsTeam s t ∧ inFlight i 0 s t ∧
      t.tm.regs = signalled i s ∧ (if op = .none_ then advances s t else advancesFresh s t) ∧
      t.cr.mat.fifo = s.cr.mat.fifo ++
        [{ op := op, iss := { issuerOf s with word := match op with | .adrn .. => wordOf i | _ => 0 } }] ∧
      { t.cr.mat with fifo := [], slots := [] } = { s.cr.mat with fifo := [], slots := [] } ∧
      ∀ k, t.cr.slot k = slotAfter op k (s.cr.slot k)

/-- R308, R309: a gatherer runs the scalar range on its own scalars; QPUSH writes an element at TAIL and advances it; any other word stops
the gatherer, not its team.
The model's own choices in it: log 66. -/
def Obligations.GatherersRun : Prop :=
  (∀ s i d w bits, (scalarArith s i = some (d, w, bits) ∨ scalarDivide s i = some (d, w, bits) ∨ scalarBitwise s i = some (d, w, bits) ∨
      scalarMove s i = some (d, w, bits)) → gathCanIssue i s = true →
    ∃ t, exec i s = .next t ∧ t.mem = s.mem ∧ onlyGath id s t ∧ gathMoves s t ∧
      ∀ r, Tbl.get 0 t.gt.s r = if r = d ∧ d ≠ 0 then w else Tbl.get 0 s.gt.s r) ∧
  (∀ s h o, let i := Instr.qpush h o
    let q := o.c.toNat
    let w := s.aq q
    let n := qEsize w / 8
    let bs := s.aqBytes w (qTail w)
    let ps := bs.zip ((List.range n).flatMap (fun k => leBytes 8 (s.rs (o.a.toNat + k)).toNat))
    gathCanIssue i s = true → qDlog w ≠ 0 → o.a.toNat + n ≤ 32 → qCount w < 2 ^ qDlog w →
    (∀ b ∈ bs, s.guarded b = false ∧ ∃ k n, regionOf s.ddr b.pa = .scratch k n) →
    ∃ t, exec i s = .next t ∧ onlyGath hideQueues s t ∧ gathMoves s t ∧ t.gt.s = s.gt.s ∧
      (∀ a, t.mem.isBad a = true ↔ s.mem.isBad a = true ∧
        ¬ ∀ j, j < granuleSize (granuleOf a) → ∃ b ∈ bs, b.pa = granuleOf a + j) ∧ (∀ a, t.mem.byte a = (storedAt ps a).getD (s.mem.byte a)) ∧ qTail (t.aq q) = (qTail w + 1) % 2 ^ 16 ∧ qHead (t.aq q) = qHead w ∧
      (∀ g, g ≠ s.tm.id.grp → t.cr.group g = s.cr.group g)) ∧
  (∀ s i, isEvent i = false → s.isGath = true → s.unitFree i = true →
    (gathOpcode (instrInfo i).opc = false ∨ (instrInfo i).gathLegal = false) → queueOpen s →
    ∃ t, exec i s = .next t ∧ t.gt.halt = true ∧ { t.gt with halt := false, handle := 0, word := 0 } = { s.gt with halt := false, handle := 0, word := 0 } ∧
      t.gt.word = wordOf i ∧ t.tm = s.tm)

/-- R33, R89, R100, R124, R262, R270, R282, R381: an incomplete instruction completes, a FENCE with its acquire; a fault of the window stops its team; a wait ends with its status;
a team long READY is promoted; a requested debug stop lands.
The model's own choices in it: log 14, 29, 31, 98, 99, 126. -/
def Obligations.TeamEvents : Prop :=
  ∀ s k i, k < 192 → i < 16 → let u := s.team k i
    (∀ op f, u.fly.find? (fun f => f.id == op) = some f → s.canComplete k i f = true →
      ∃ t, exec (.instructionCompletion k i op) s = .next t ∧
        coreOnly k (fun c => { c with teams := [], tabs := { c.tabs with l1 := [] } }) s t ∧ (∀ j, j ≠ i → t.team k j = s.team k j) ∧
        (t.core k).tabs.l1 = (if f.fence = true ∧ 4 ≤ f.acq then (s.core k).tabs.l1.filter (fun e => decide (e.2.tag = 0)) else (s.core k).tabs.l1) ∧
        { t.team k i with regs := u.regs, fly := u.fly, haz := u.haz } = u ∧
        { (t.team k i).regs with tstat := u.regs.tstat, edge := u.regs.edge, flags := u.regs.flags, rpm := u.regs.rpm } = u.regs ∧
        (t.team k i).regs.edge = u.regs.edge ||| f.stat ∧ (t.team k i).regs.rpm = (if f.clr then 0 else u.regs.rpm) ∧
        (t.team k i).fly = u.fly.filter (fun g => g.id != op) ∧ (∀ h ∈ (t.team k i).haz, h.fly ≠ some op) ∧
        (t.team k i).regs.tstat = u.regs.tstat ||| f.stat ∧
        ∀ n, (t.team k i).flag n = if n = f.flag ∧ n ≠ 0 then { u.flag n with count := (u.flag n).count - 1 } else u.flag n) ∧
    (∀ op, (∀ f, u.fly.find? (fun f => f.id == op) = some f → s.canComplete k i f = false) →
      exec (.instructionCompletion k i op) s = .next s) ∧
    (∀ fr, u.flt.win = some fr → u.flt.pf = false → (u.st = 1 ∨ u.st = 2) → (∀ f ∈ u.fly, f.id = u.flt.winFly → f.held = []) →
      ∃ t, exec (.faultRaise k i) s = .next t ∧ (∀ j, j ≠ i → t.team k j = s.team k j) ∧ sameValues u (t.team k i) ∧
        (t.team k i).path = u.path ∧ (t.team k i).st = 2 ∧ (t.team k i).wait = none ∧ (t.team k i).regs.rpm = fr.rpm ∧
        (t.team k i).flt.pf = true ∧ (t.team k i).flt.fpc = u.flt.winPc ∧ (t.team k i).flt.code = fr.code ∧ (t.team k i).flt.win = none ∧
        ((s.die (dieOfCore k)).fq.room ((pageSlots fr.pages).length + 1) = true → ∀ f ∈ (t.team k i).fly, f.id ≠ u.flt.winFly)) ∧
    (u.flt.win = none ∨ u.flt.pf = true → exec (.faultRaise k i) s = .next s) ∧
    (∀ w st, u.wait = some w → s.waitStatus k i w = some st → s.relocks k = false → u.varPending none (.s w.dest) 0 = false →
      ∃ t, exec (.waitTimeout k i) s = .next t ∧ { t with cores := s.cores } = s ∧ (∀ j, j ≠ k → t.core j = s.core j) ∧
        (∀ j, j ≠ i → t.team k j = s.team k j) ∧ (t.team k i).st = 1 ∧ (t.team k i).wait = none ∧
        (t.team k i).path = loopBack w.pc { u.path with pc := nextPc w.pc } ∧ (t.team k i).regs.v = u.regs.v ∧
        (t.team k i).regs.p = u.regs.p ∧ (t.team k i).regs.c = u.regs.c ∧
        ∀ r, Tbl.get 0 (t.team k i).regs.s r = if r = w.dest ∧ r ≠ 0 then BitVec.ofNat 64 st else Tbl.get 0 u.regs.s r) ∧
    (s.relocks k = true ∨ (∀ w, u.wait = some w → s.waitStatus k i w = none) → exec (.waitTimeout k i) s = .next s) ∧
    (∃ t, exec (.classPromotion k i) s = .next t ∧ slotOnly k i s t ∧
      t.team k i = if u.st = 1 ∧ 4096 ≤ u.sched.readyFor ∧ u.sched.promo < u.id.cls
        then { u with sched := { u.sched with promo := u.sched.promo + 1, readyFor := 0 } } else u) ∧
    (∀ n w, u.flt.dbg = some n → (asTeam s k i).agentReady = true → u.flt.replay = false → u.flt.win = none → u.path.atJoin = false →
      (asTeam s k i).fetchWord = .ok w → stopsAt (wOpc w) = true →
      ∃ t, exec (.debugStop k i) s = .next t ∧ (∀ j, j ≠ i → t.team k j = s.team k j) ∧ sameValues u (t.team k i) ∧
        (t.team k i).path = u.path ∧ (t.team k i).st = 2 ∧ (t.team k i).regs.rpm = 0 ∧ (t.team k i).regs.flags = u.regs.flags ∧
        (t.team k i).flt.pf = true ∧ (t.team k i).flt.fpc = u.path.pc ∧ (t.team k i).flt.code = 0x0F ∧ (t.team k i).flt.dbg = none) ∧
    (u.flt.dbg = none ∨ u.flt.win ≠ none → exec (.debugStop k i) s = .next s)

/-- R12, R13, R31, R320, R370, R372, R375: core cycles, as often as reference time brings them, relocks, the discipline of reference time, epochs and stall samples.
The model's own choices in it: log 30, 73, 74. -/
def Obligations.ClockEvents : Prop :=
  (∀ s d, cyclePasses s d → (s.cores.map Prod.fst).Nodup → let c := (s.die d).clk
    ∃ t sel, exec (.coreCycle d) s = .next t ∧
      { t with cores := s.cores, dies := s.dies, selected := s.selected } = s ∧ t.selected = s.selected ++ sel ∧
      (∀ e, e ≠ d → t.die e = s.die e) ∧ { t.die d with clk := c, cbars := (s.die d).cbars } = s.die d ∧ (t.die d).clk = clockAfter s c ∧
      (∀ k, dieOfCore k ≠ d → t.core k = s.core k) ∧
      valuesKept s t ∧ (∀ k, (sel.filter (fun a => match a with | .team j _ => j == k | .gath .. => false)).length ≤ 2) ∧
      ∀ k i, Agent.team k i ∈ sel → dieOfCore k = d ∧ s.stopped k = false ∧ (s.team k i).st = 1 ∧ (s.team k i).flt.pf = false) ∧
  (∀ s d, d < 4 → ¬ atEdge s d → exec (.coreCycle d) s = .next s) ∧
  (∀ s d, d < 4 → (s.die d).clk.next ≠ none → exec (.coreCycle d) s = exec (.relockBegin d) s) ∧
  (∀ s d st cause, d < 4 → atEdge s d → (s.die d).clk.next = some (st, cause) → let c := (s.die d).clk
    let u := s.cycleEnd d
    ∃ t, exec (.relockBegin d) s = .next t ∧ { t with cores := s.cores, dies := s.dies } = s ∧ (∀ e, e ≠ d → t.die e = s.die e) ∧
      (t.die d).clk = { clockAfter s c with relock := some 2000, counted := true, goal := (st, cause), next := none } ∧ valuesKept s t ∧
      (c.counted = true → t.die d = { s.die d with clk := (t.die d).clk } ∧ u.cores = s.cores) ∧
      (∀ k, dieOfCore k ≠ d → t.core k = s.core k) ∧
      coresNote (fun k => dieOfCore k == d) 0x0E (c.step * 2 ^ 62 + st * 2 ^ 60 + cause * 2 ^ 58) u t) ∧
  (∀ s d, d < 4 → ((s.die d).clk.next = none ∨ ¬ atEdge s d) → exec (.relockBegin d) s = .next s) ∧
  (∀ s d x, d < 4 → (s.die d).clk.relock = some x → let c := (s.die d).clk
    if x ≠ 0 then exec (.relockEnd d) s = .next s
    else ∃ t, exec (.relockEnd d) s = .next t ∧ { t with cores := s.cores, dies := s.dies } = s ∧ (∀ e, e ≠ d → t.die e = s.die e) ∧
      t.die d = { s.die d with clk := { c with relock := none, step := c.goal.1 } } ∧
      coresNote (fun k => dieOfCore k == d) 0x0E (c.step * 2 ^ 62 + c.goal.1 * 2 ^ 60 + c.goal.2 * 2 ^ 58 + 2 ^ 57) s t) ∧
  (∀ (s : State) x, let p := s.ctrl.ptp
    ∃ t, exec (.ptpMessage x) s = .next t ∧ t.ctrl.ptp.lock = 1 ∧ t.ctrl.ptp.everLocked = true ∧ t.mem = s.mem ∧ t.dies = s.dies ∧
      t.io = s.io ∧ t.tasks = s.tasks ∧
      (if p.everLocked = false ∧ s.time < x then t.time = x ∧ coresNote (fun k => decide (k < 192)) 0x12 x s t
       else t.time = s.time ∧ t.cores = s.cores ∧ -500000 ≤ t.ctrl.ptp.rate ∧ t.ctrl.ptp.rate ≤ 500000 ∧
         (p.everLocked = false → x < s.time → t.ctrl.ptp.rate = -500000) ∧ (p.everLocked = false → x = s.time → t.ctrl.ptp.rate = 0))) ∧
  (∀ (s : State), if s.ctrl.ptp.everLocked then ∃ t, exec .ppsPulse s = .next t ∧ { t with ctrl := s.ctrl } = s ∧ { t.ctrl with ptp := s.ctrl.ptp } = s.ctrl ∧
      t.ctrl.ptp.lock = 1 else exec .ppsPulse s = .next s) ∧
  (∀ (s : State), if s.ctrl.ptp.everLocked then exec .ptpLoss s = .next { s with ctrl := { s.ctrl with ptp := { s.ctrl.ptp with lock := 2 } } }
    else exec .ptpLoss s = .next s) ∧
  (∀ (s : State), if s.time / 2 ^ 40 ≤ s.ctrl.epoch then exec .epoch s = .next s
    else ∃ t, exec .epoch s = .next t ∧ { t with cores := s.cores, ctrl := s.ctrl } = s ∧ t.ctrl = { s.ctrl with epoch := s.time / 2 ^ 40 } ∧
      coresNote (fun k => decide (k < 192)) 0x12 s.time s t) ∧
  (∀ s k i, k < 192 → let c := s.core k
    let order := (List.range 16).map (fun n => (c.ctl.ssteam + n) % 16)
    c.ctl.ssen = true → c.ctl.ssper ≤ c.ctl.sscnt →
    order.find? (fun i => ((c.team i).st == 1 || (c.team i).st == 2) && !c.ctl.issued.contains i) = some i →
    ∃ t, exec (.stallSample k) s = .next t ∧ coreOnly k (fun c => { c with ctl := {} }) s t ∧
      { (t.core k).ctl with sscnt := 0, ssteam := 0, ssslot := 0, samples := [] } = { c.ctl with sscnt := 0, ssteam := 0, ssslot := 0, samples := [] } ∧
      (t.core k).ctl.sscnt = 0 ∧ (t.core k).ctl.ssteam = (i + 1) % 16 ∧ (t.core k).ctl.ssslot = (c.ctl.ssslot + 1) % 8 ∧
      ∀ j, let x : Sample := Tbl.get {} (t.core k).ctl.samples j
        if j = c.ctl.ssslot % 8 then x.spc = BitVec.ofNat 64 (2 ^ 63 + (c.team i).path.pc.toNat % 2 ^ 60 / 8 * 8) ∧
          x.sinf.extractLsb' 20 4 = BitVec.ofNat 4 i ∧ x.sinf.extractLsb' 24 8 = BitVec.ofNat 8 (c.team i).id.tenant
        else x = Tbl.get {} c.ctl.samples j) ∧
  (∀ s k, k < 192 → ((s.core k).ctl.ssen = false ∨ (s.core k).ctl.sscnt < (s.core k).ctl.ssper) → exec (.stallSample k) s = .next s)

/-- R297, R300, R304, R305, R306: enqueue writes, those that are discarded, queue state words; the rank of what the dispatcher may work on,
taking a record, placing a group or a whole cluster set (R21), putting a saved group back (R393, R394); START, completion and stealing of
a range or of the record at the head of a queue.
The model's own choices in it: log 56, 57, 63, 96, 115, 117, 133. -/
def Obligations.DispatchEvents : Prop :=
  (∀ s fn q data, let u := s.tq q
    fn < 17 → q < 256 → s.fnOpen fn = true → s.ctrl.power ≠ 2 → data.length = 64 → u.full = false → u.en = true →
    (fn = 0 ∨ vfTenant (s.binding (fn - 1)) = u.tenant) → (regionOf s.ddr (u.slot u.tail)).plain = true →
    ∃ t, exec (.hostEnqueue fn q 0 data) s = .next t ∧ queueOnly q s t ∧
      t.tq q = { u with tail := u.tail + 1, times := Tbl.set 0 u.times u.tail.toNat s.time } ∧
      (∀ a, (a < u.slot u.tail ∨ u.slot u.tail + 64 ≤ a) → t.mem.byte a = s.mem.byte a) ∧
      ∀ n, n < 512 → (t.mem.byte (u.slot u.tail + n / 8)).getLsbD (n % 8) =
        if 345 ≤ n ∧ n < 347 then u.cls.testBit (n - 345) else if 347 ≤ n ∧ n < 355 then u.tenant.testBit (n - 347)
        else (data.getD (n / 8) 0).getLsbD (n % 8)) ∧
  (∀ s fn q off data, fn < 17 → q < 256 → (s.fnOpen fn = false ∨ s.ctrl.power = 2) → exec (.hostEnqueue fn q off data) s = .next s) ∧
  (∀ s fn q off data, let u := s.tq q
    fn < 17 → q < 256 → (off ≠ 0 ∨ data.length ≠ 64 ∨ u.full = true ∨ u.en = false ∨ (fn ≠ 0 ∧ vfTenant (s.binding (fn - 1)) ≠ u.tenant)) →
    ∃ t, exec (.hostEnqueue fn q off data) s = .next t ∧ t.tq q = u ∧ t.tasks = s.tasks ∧ valuesKept s t) ∧
  (∀ s q (w : BitVec 128), let u := s.tq q
    q < 256 → s.ctrl.power ≠ 2 →
    ∃ t, exec (.taskQueueStateWrite q w) s = .next t ∧ queueOnly q s t ∧ t.mem = s.mem ∧
      if w.extractLsb' 76 8 = 0xFF then t.tq q = u else (t.tq q).tenant = (w.extractLsb' 76 8).toNat ∧ (t.tq q).cls = (w.extractLsb' 74 2).toNat ∧ (t.tq q).prv = w.getLsbD 73 ∧
      (t.tq q).pull = w.getLsbD 72 ∧ (t.tq q).en = w.getLsbD 71 ∧
      if u.en then (t.tq q).base = u.base ∧ (t.tq q).szlog = u.szlog ∧ (t.tq q).tail = u.tail ∧ (t.tq q).head = u.head
      else (t.tq q).base = (w.extractLsb' 88 40).toNat ∧ (t.tq q).szlog = (w.extractLsb' 84 4).toNat ∧
        (t.tq q).tail = w.extractLsb' 32 32 ∧ (t.tq q).head = w.extractLsb' 0 32) ∧
  (∀ (s : State) q, let u := s.tq q
    let h := s.headRecord q
    s.eligible q = true ↔ u.en = true ∧ u.pull = false ∧ u.count ≠ 0 ∧ (∀ i, hWaitc h = some i → (s.dc i).owner ≠ u.tenant ∨ (s.dc i).val = 0) ∧
      ∀ b, b < 4 → hGbm h b = true → (Tbl.get {} s.io.grids b).holder = none) ∧
  (∀ (s : State) d x c, let p := (s.die d).disp
    ((x, c) ∈ s.cands d ↔ (∃ a ∈ p.active, a.tag ∉ p.paused ∧ c = .task a.tag ∧ x = ((s.task a.tag).cls, 0, a.taken)) ∨
      ∃ i, i < 64 ∧ p.active.length < 16 ∧ s.eligible (64 * d + i) = true ∧ c = .record (64 * d + i) ∧
        x = ((s.tq (64 * d + i)).cls, 1, (i + 64 - (p.lastQ + 1) % 64) % 64)) ∧
    (bestCand (s.cands d) = some (x, c) → (x, c) ∈ s.cands d ∧ ∀ y ∈ s.cands d,
      x.1 < y.1.1 ∨ (x.1 = y.1.1 ∧ (x.2.1 < y.1.2.1 ∨ (x.2.1 = y.1.2.1 ∧ x.2.2 ≤ y.1.2.2))))) ∧
  (∀ s d, d < 4 → ((s.die d).frozen = true ∨ s.ctrl.power ≠ 0 ∨ (s.die d).clk.relock ≠ none ∨ s.cands d = []) →
    exec (.dispatchStep d) s = .next s) ∧
  (∀ s d x q, d < 4 → dispatches s d → bestCand (s.cands d) = some (x, .record q) → let u := s.tq q
    let h := s.headRecord q
    let tag := q * 2 ^ 32 + u.head.toNat
    s.malformed h u.tenant = none → (∀ i, hWaitc h = some i → (s.dc i).err = false) →
    ∃ t, exec (.dispatchStep d) s = .next t ∧ t.mem = s.mem ∧ valuesKept s t ∧ (t.tq q).head = u.head + 1 ∧ (t.tq q).tail = u.tail ∧
      (t.task tag).live = true ∧ (t.task tag).hdr = h ∧ (t.task tag).queue = q ∧ (t.task tag).die = d ∧ (t.task tag).tenant = u.tenant ∧
      (t.task tag).prv = u.prv ∧ (t.task tag).cls = u.cls ∧ (∀ j, j ≠ tag → t.task j = s.task j) ∧
      (t.die d).disp.active = (s.die d).disp.active ++ [{ tag := tag, lo := 0, hi := hGroups h, taken := (s.die d).disp.takes }] ∧
      ∀ b, b < 4 → hGbm h b = true → (Tbl.get {} t.io.grids b).holder = some tag) ∧
  (∀ s d x a k r, d < 4 → dispatches s d → bestCand (s.cands d) = some (x, .task a.tag) → let p := (s.die d).disp
    let h := (s.task a.tag).hdr
    p.active.find? (fun y => y.tag == a.tag) = some a → a.images = [] → hCl h = 0 →
    s.coreWithRoom h (searchCores d p.lastCore) = some (k, r) →
    ∃ t, exec (.dispatchStep d) s = .next t ∧ (∀ j, j ≠ k → t.core j = s.core j) ∧ (t.die d).disp.lastCore = k % 48 ∧
      (∀ b, t.mem.byte b = if winBase k + r.base ≤ b ∧ b < winBase k + r.base + hAlloc h then 0 else s.mem.byte b) ∧
      (let g := (t.core k).group (r.slots.headD 0)
       g.gref = grefOf a.tag a.lo ∧ g.tag = a.tag ∧ g.slots = r.slots ∧ g.base = r.base ∧ g.size = hAlloc h ∧ g.nbar = hNbar h) ∧
      r.slots.length = hT h ∧
      ∀ n, n < hT h → let u := t.team k (r.slots.getD n 0)
        u.st = 1 ∧ u.path = { pc := hEntry h, mask := Mask.of (lanesBelow (hN h)) } ∧ u.regs = {} ∧ u.id.tag = a.tag ∧ u.id.tidx = n ∧
        u.id.role = hRole h n ∧ u.id.lanes = hN h ∧ u.id.tenant = (s.task a.tag).tenant ∧ (s.team k (r.slots.getD n 0)).st = 0) ∧
  (∀ s d x a, d < 4 → dispatches s d → bestCand (s.cands d) = some (x, .task a.tag) → let p := (s.die d).disp
    let h := (s.task a.tag).hdr
    p.active.find? (fun y => y.tag == a.tag) = some a → a.images = [] → hCl h ≠ 0 →
    ∃ t, exec (.dispatchStep d) s = .next t ∧
      ((t = s ∧ ∀ c, c < 6 → s.cbFree d c h = true → s.placeSet d c a.tag h ((List.range (hSet h)).map (a.lo + ·)) 0 = none) ∨
       ∃ c, c < 6 ∧ s.cbFree d c h = true ∧ (t.die d).disp.lastClus = c ∧
        (∀ n, n < hSet h → ∃ k j, dieOfCore k = d ∧ clusterOf k = c ∧ let g := (t.core k).group j
          g.gref = grefOf a.tag (a.lo + n) ∧ g.tag = a.tag ∧ g.cluster = some c ∧ g.slots.length = hT h) ∧
        (∀ b, b < 8 → hCbm h b = true → Tbl.get 0 (t.die d).cbHeld (8 * c + b) = hSet h ∧
          Tbl.get ({} : Bar) (t.die d).cbars (8 * c + b) = { count := hSet h * hT h }) ∧
        ∀ k, ¬ (dieOfCore k = d ∧ clusterOf k = c) → t.core k = s.core k)) ∧
  (∀ s d x a pa pas k r, d < 4 → dispatches s d → bestCand (s.cands d) = some (x, .task a.tag) → let p := (s.die d).disp
    let bs := s.imageAt pa
    let m := imageMap bs
    let offs := blockOffsets bs (hN m.hdr) (hT m.hdr) m.teams
    p.active.find? (fun y => y.tag == a.tag) = some a → a.images = pa :: pas → m.ok bs = true → (∀ n, n < 8 → rdBB bs (m.slots + 32 * n) 8 = 0) →
    (∀ e, (s.die e).fq.acts = []) →
    (searchCores d p.lastCore).findSome? (fun k =>
      if s.entriesFree k (m.entries bs) && s.setFits d (clusterOf k) m then (s.room k m.hdr).map (fun r => (k, r)) else none) = some (k, r) →
    ∃ t, exec (.dispatchStep d) s = .next t ∧ (t.die d).disp.lastCore = k % 48 ∧
      (let g := (t.core k).group (r.slots.headD 0)
       g.gref = m.gref ∧ g.tag = m.tag ∧ g.hdr = m.hdr ∧ g.slots = r.slots ∧ g.base = r.base ∧ g.size = m.size) ∧
      (∀ j, j < m.size → t.mem.byte (winBase k + r.base + j) = (bs.getD (offs.getD (hT m.hdr) 0 + j) (0, false)).1) ∧
      ∀ n, n < hT m.hdr → let u := t.team k (r.slots.getD n 0)
        let o := offs.getD n 0
        u.id.tag = m.tag ∧ u.id.tidx = n ∧ u.path.mask.sect = BitVec.ofNat 1024 (rdBB bs (o + 576) 128) ∧
        ∀ i, 1 ≤ i → i < 64 → Tbl.get 0 u.regs.s i = BitVec.ofNat 64 (rdBB bs (o + 64 + 8 * i) 8)) ∧
  (∀ (s : State) q take, q < 256 → let tag := q * 2 ^ 32 + take
    if s.time < hStart (s.task tag).hdr then exec (.startTimeReached q take) s = .next s
    else ∃ t, exec (.startTimeReached q take) s = .next t ∧ { t with cores := s.cores } = s ∧
      (∀ k, { t.core k with teams := [] } = { s.core k with teams := [] }) ∧
      ∀ k i, let u := s.team k i
        t.team k i = if i < 16 ∧ u.st ≠ 0 ∧ u.id.tag = tag ∧ u.id.start ≠ 0
          then { u with id := { u.id with start := 0 } } else u) ∧
  (∀ (s : State) q take, q < 256 → let tag := q * 2 ^ 32 + take
    let u := s.task tag
    if u.live = true ∧ s.taskBusy tag = false then
      ∃ t, exec (.taskCompletion q take) s = .next t ∧ t.mem = s.mem ∧ valuesKept s t ∧ (t.task tag).live = false ∧
        (∀ j, j ≠ tag → t.task j = s.task j) ∧
        (∀ i, (t.dc i) = if hSigc u.hdr = some i then { s.dc i with val := (s.dc i).val - 1, err := (s.dc i).err || u.err } else s.dc i) ∧
        ∀ b, b < 4 → (Tbl.get {} s.io.grids b).holder = some tag → (Tbl.get {} t.io.grids b).holder = none
    else exec (.taskCompletion q take) s = .next s) ∧
  (∀ s d t0 l a, d < 4 → let p := (s.die d).disp
    p.idle = some t0 → p.steal ≠ 0 → t0 + p.steal ≤ s.time → (s.die d).frozen = false → s.ctrl.power = 0 →
    bestLoot ((((List.range 4).filter (fun e => e != d && !(s.die e).frozen)).map s.lootOf).flatten) = some l → l.cand = .task a.tag →
    (s.die l.victim).disp.active.find? (fun y => y.tag == a.tag) = some a → let u := hSet (s.task a.tag).hdr
    let m := a.lo + u * ((a.hi - a.lo + 2 * u - 1) / (2 * u))
    ∃ t, exec (.steal d) s = .next t ∧ { t with dies := s.dies } = s ∧ l.victim ≠ d ∧ (∀ e, e ≠ d → e ≠ l.victim → t.die e = s.die e) ∧
      (t.die l.victim).disp.active = (s.die l.victim).disp.active.map (fun y => if y.tag == a.tag then { y with hi := m } else y) ∧
      (t.die d).disp.active = p.active ++ [{ tag := a.tag, lo := m, hi := a.hi, taken := p.takes }]) ∧
  (∀ s d t0 l q, d < 4 → let p := (s.die d).disp
    p.idle = some t0 → p.steal ≠ 0 → t0 + p.steal ≤ s.time → (s.die d).frozen = false → s.ctrl.power = 0 →
    bestLoot ((((List.range 4).filter (fun e => e != d && !(s.die e).frozen)).map s.lootOf).flatten) = some l → l.cand = .record q →
    let u := s.tq q
    let h := s.headRecord q
    let tag := q * 2 ^ 32 + u.head.toNat
    let w := hSet h
    let m := w * ((hGroups h + 2 * w - 1) / (2 * w))
    (∀ e, ∀ a ∈ (s.die e).disp.active, a.tag ≠ tag) →
    ∃ t, exec (.steal d) s = .next t ∧ t.mem = s.mem ∧ valuesKept s t ∧ l.victim ≠ d ∧ (t.tq q).head = u.head + 1 ∧
      (t.task tag).live = true ∧ (t.task tag).hdr = h ∧
      (t.die l.victim).disp.active = (s.die l.victim).disp.active ++ [{ tag := tag, lo := 0, hi := m, taken := (s.die l.victim).disp.takes }] ∧
      (t.die d).disp.active = p.active ++ [{ tag := tag, lo := m, hi := hGroups h, taken := p.takes }]) ∧
  (∀ s d, d < 4 → let p := (s.die d).disp
    (p.idle = none ∨ p.steal = 0 ∨ (∀ t0, p.idle = some t0 → s.time < t0 + p.steal) ∨ (s.die d).frozen = true ∨ s.ctrl.power ≠ 0) →
    exec (.steal d) s = .next s)

/-- R313, R342, R384, R387, R391, R392, R394, R400: waiting records and the command words of a queue block; what the host's RESOLVE does to
teams, resident or saved, to gatherers, copies and drains.
The model's own choices in it: log 12, 13, 58, 59, 60, 61, 100, 116, 125. -/
def Obligations.CommandEvents : Prop :=
  (∀ s d p w conts, d < 4 → let q := (s.die d).fq
    q.waiting = [p] → p.words = w :: conts → q.en = true → q.used + p.words.length ≤ 1024 →
    ∃ t, exec (.deferredRecordWrite d) s = .next t ∧ (t.die d).fq.waiting = [] ∧ (t.die d).fq.tail = (q.tail + p.words.length) % 1024 ∧
      valuesKept s t) ∧
  (∀ s d, d < 4 → let q := (s.die d).fq
    (q.waiting = [] ∨ q.en = false ∨ ∃ p ps, q.waiting = p :: ps ∧ 1024 < q.used + p.words.length) → exec (.deferredRecordWrite d) s = .next s) ∧
  (∀ (s : State) d (w : BitVec 128), d < 4 → w.extractLsb' 40 85 = 0 → w.getLsbD 127 = true → let tag := (w.extractLsb' 0 40).toNat
    if (s.task tag).live then
      ∃ t, exec (.kill d w) s = .next t ∧ (t.die d).cmd.kill = (w.extractLsb' 0 40).zeroExtend 128 ∧
        (∀ e, e < 4 → ∀ a ∈ (t.die e).disp.active, a.tag ≠ tag) ∧
        (∀ k i, i < 16 → (s.team k i).id.tag = tag → ((s.team k i).st = 1 ∨ (s.team k i).st = 2) → (t.team k i).st = 4) ∧
        (∀ k i, (s.team k i).id.tag ≠ tag → (t.team k i).st = (s.team k i).st) ∧
        ((t.task tag).live = true → (t.task tag).killed = true ∧ (t.task tag).err = true) ∧
        ∀ e, e < 4 → ∀ r ∈ (t.die e).fq.recs, r.agent < 4 → r.gref.toNat % 2 ^ 32 = (grefOf tag 0).toNat % 2 ^ 32 → r.pend = false
    else ∃ t, exec (.kill d w) s = .next t ∧ dieOnly d (fun x => { x with cmd := { x.cmd with kill := 0 } }) s t ∧
      (t.die d).cmd.kill = (w.extractLsb' 0 40).zeroExtend 128 ||| (1#128 <<< 125)) ∧
  (∀ (s : State) d (w : BitVec 256), d < 4 → w.extractLsb' 168 85 = 0 → w.getLsbD 255 = true → (s.die d).cmd.saving = false →
    (s.cores.map Prod.fst).Nodup →
    let tag := (w.extractLsb' 128 40).toNat
    let mine := fun k g => dieOfCore k = d ∧ g ∈ (s.core k).resident ∧ g.2.tag = tag
    ((∃ k g, mine k g) → ∃ t, exec (.preempt d w) s = .next t ∧ (t.die d).cmd.saving = true ∧ (t.die d).cmd.preempt.getLsbD 255 = true ∧
      (t.die d).cmd.preempt.extractLsb' 0 253 = w.extractLsb' 0 253 ∧ ((s.task tag).live = true → tag ∈ (t.die d).disp.paused) ∧ valuesKept s t ∧
      ∀ k g, mine k g → ((t.core k).group g.1).saving = true) ∧
    ((∀ k g, ¬ mine k g) → ∃ t, exec (.preempt d w) s = .next t ∧
      dieOnly d (fun x => { x with cmd := { x.cmd with preempt := 0 }, disp := { x.disp with paused := [] } }) s t ∧
      (t.die d).disp.paused = (if (s.task tag).live then tag :: (s.die d).disp.paused.filter (· != tag) else (s.die d).disp.paused) ∧
      (t.die d).cmd.preempt = (w.extractLsb' 0 168).zeroExtend 256 ||| (1#256 <<< 254))) ∧
  (∀ s d w, d < 4 → (s.die d).cmd.saving = true → exec (.preempt d w) s = .next s) ∧
  (∀ (s : State) d (w : BitVec 128), d < 4 → w.extractLsb' 64 61 = 0 → w.getLsbD 127 = true →
    match s.directory (w.extractLsb' 0 64).toNat with
    | none => ∃ t, exec (.resume d w) s = .next t ∧ dieOnly d (fun x => { x with cmd := { x.cmd with resume := 0 } }) s t ∧
        (t.die d).cmd.resume = (w.extractLsb' 0 64).zeroExtend 128 ||| (1#128 <<< 125)
    | some pas =>
      let im := fun pa => imageMap (s.readBB pa 256)
      let tag := (im (pas.headD 0)).tag
      let gs : List Nat := pas.map (fun pa => (im pa).gref.toNat / 2 ^ 32)
      (∀ pa ∈ pas, (im pa).tag = tag ∧ (im pa).ok (s.readBB pa 256) = true) → gs.Nodup → (s.task tag).live = true →
      (s.task tag).killed = false → (∀ g ∈ gs, g ∈ (s.task tag).saved) →
      ∃ t, exec (.resume d w) s = .next t ∧ { t with dies := s.dies } = s ∧ (t.die d).cmd.resume = (w.extractLsb' 0 64).zeroExtend 128 ∧
        (∀ e, e < 4 → tag ∉ (t.die e).disp.paused) ∧ ∃ a ∈ (t.die d).disp.active, a.tag = tag ∧ ∀ pa ∈ pas, pa ∈ a.images) ∧
  (∀ s d (w : Word) r, d < 4 → w.extractLsb' 34 28 = 0 → w.getLsbD 63 = true → (w.extractLsb' 32 2).toNat ≤ 1 →
    (s.die d).fq.recs.find? (fun r => r.pend && r.handle.toNat == (w.extractLsb' 0 32).toNat) = some r → r.agent = 0 →
    let u := s.team r.core r.unit
    u.id.gref = r.gref → u.st ≠ 0 → u.flt.pf = true →
    ∃ t, exec (.resolve d w) s = .next t ∧ valuesKept s t ∧ (t.die d).cmd.resolve = (w.extractLsb' 0 34).zeroExtend 64 ∧
      (t.team r.core r.unit).st = 1 ∧ (t.team r.core r.unit).flt.pf = false ∧
      (t.team r.core r.unit).path = resumedPath u (w.extractLsb' 32 2).toNat ∧
      (t.team r.core r.unit).flt.replay = (w.extractLsb' 32 2 == 0 && !u.flt.unissued)) ∧
  (∀ s d (w : Word) r, d < 4 → w.extractLsb' 34 28 = 0 → w.getLsbD 63 = true → let b := (w.extractLsb' 32 2).toNat
    (s.die d).fq.recs.find? (fun r => r.pend && r.handle.toNat == (w.extractLsb' 0 32).toNat) = some r →
    (regionOf s.ddr (recordByte s d r)).plain = true →
    ∃ t, exec (.resolve d w) s = .next t ∧ (t.die d).cmd.resolve = (w.extractLsb' 0 34).zeroExtend 64 ∧
      (b ≤ 2 → recordActs d r b (w.extractLsb' 0 32).toNat s t) ∧
      (b = 3 ∨ (b = 1 ∧ 2 ≤ r.agent) → dieOnly d (fun x => { x with cmd := { x.cmd with resolve := 0 } }) s t)) ∧
  (∀ (s : State) d (w : Word), d < 4 → w.extractLsb' 34 28 = 0 → w.getLsbD 63 = true →
    (∀ r ∈ (s.die d).fq.recs, r.pend = true → r.handle.toNat ≠ (w.extractLsb' 0 32).toNat) →
    ∃ t, exec (.resolve d w) s = .next t ∧ dieOnly d (fun x => { x with cmd := { x.cmd with resolve := 0 } }) s t ∧
      (t.die d).cmd.resolve = (w.extractLsb' 0 34).zeroExtend 64 ||| (1#64 <<< 62)) ∧
  (∀ s k g, k < 192 → s.stopped k = false → s.savable k g = true → let d := dieOfCore k
    let gr := (s.core k).group g
    let c := (s.die d).cmd
    let n := (saveImage s k g).length
    if (c.preempt.extractLsb' 64 64).toNat < c.saveOff + n then
      ∃ t, exec (.groupSave k g) s = .next t ∧ t.mem = s.mem ∧ t.tasks = s.tasks ∧ ((t.core k).group g).saving = false
    else
      ∃ t, exec (.groupSave k g) s = .next t ∧ (t.task gr.tag).saved = (s.task gr.tag).saved ++ [gr.gidx] ∧ ((t.core k).group g).slots = [] ∧
        (∀ i ∈ gr.slots, (t.team k i).st = 0) ∧ (t.die d).cmd.saveOff = c.saveOff + n ∧ (t.die d).cmd.saveCnt = c.saveCnt + 1) ∧
  (∀ s k g, k < 192 → (s.stopped k = true ∨ s.savable k g = false) → exec (.groupSave k g) s = .next s) ∧
  (∀ (s : State) d (w : BitVec 128), d < 4 →
    let own := fun (e : TlbEntry) => e.tenant == (w.extractLsb' 117 8).toNat
    let among := fun (e : TlbEntry) =>
      decide (e.vpn < (w.extractLsb' 32 44).toNat + (w.extractLsb' 0 32).toNat ∧ (w.extractLsb' 32 44).toNat < e.vpn + e.pages)
    let word := (w &&& ~~~(BitVec.ofNat 128 (2 ^ 117 - 2 ^ 76))).extractLsb' 0 127
    ∀ x ∈ [(Instr.invalidateAll d w, 0#2, fun (_ : TlbEntry) => true), (.invalidateTenant d w, 1#2, own),
      (.invalidatePages d w, 2#2, fun e => own e && among e)], let (i, scope, hit) := x
    if (s.die d).cmd.inval.getLsbD 127 then exec i s = .next s
    else if w.getLsbD 127 = true ∧ w.extractLsb' 76 41 = 0 ∧ w.extractLsb' 125 2 = scope then
      ∃ t, exec i s = .next t ∧ { t with cores := s.cores, dies := s.dies } = s ∧ valuesKept s t ∧
        (t.die d).cmd.inval.extractLsb' 0 127 = word ∧
        (s.usersOf hit = [] → (t.die d).cmd.inval.getLsbD 127 = false) ∧
        ((∃ u ∈ s.usersOf hit, s.stillUsing u = true) → (t.die d).cmd.inval.getLsbD 127 = true) ∧
        (∀ k, (t.core k).tabs.tlb = (s.core k).tabs.tlb.filter (fun e => !hit e)) ∧
        (∀ k, (t.core k).tabs.icache = (s.core k).tabs.icache.filter (fun l =>
          !hit { tenant := l.2.tag / 2 ^ 44, vpn := l.2.tag % 2 ^ 44 / l.2.pages * l.2.pages, pages := l.2.pages })) ∧
        ∀ e, e < 4 → (t.die e).tlb = (s.die e).tlb.filter (fun x => !hit x)
    else ∃ t, exec i s = .next t ∧ dieOnly d (fun x => { x with cmd := { x.cmd with inval := 0 } }) s t ∧
      (t.die d).cmd.inval = word.zeroExtend 128)

/-- R290, R291, R354: a block of a copy from scratchpad to scratchpad lands, is counted at its barrier, and the last one retires the copy;
a copy that is stopped at a fault, has none of the four channels (R10), stands behind a relock (R13) or follows held accesses of its team
(R266) does nothing.
The model's own choices in it: log 6, 54, 120, 122. -/
def Obligations.CopyBlocksLand : Prop :=
  (∀ (s : State) k id c, k < 192 → s.stopped k = false → (s.core k).copies.find? (fun c => c.id == id) = some c → let g := (s.core k).group c.iss.grp
    let lo := c.prog
    let hi := min c.total (c.prog + 256)
    let dst := winBase k + g.base + c.sd.toNat
    let src := winBase k + g.base + c.sa.toNat
    let bar := g.bbase + c.k
    (s.die (dieOfCore k)).clk.relock = none → s.earlierHeld k c.iss = false → (s.core k).hasChannel id = true →
    c.kind = 0 → c.pend = false → c.ssp = true → c.dsp = true → c.swzMode = 0 → c.gent.isSome = true ∨ c.prog ≠ 0 → c.srcBuf = [] → c.dstBuf = [] →
    c.prog < c.total → c.sd.toNat + c.total ≤ g.size → c.sa.toNat + c.total ≤ g.size → g.base + g.size ≤ 0x30_0000 →
    (∀ j, lo ≤ j → j < hi → s.mem.isBad (src + j) = false) →
    ∃ t, exec (.copyBlock k id) s = .next t ∧ memElse (fun a => dst + lo ≤ a ∧ a < dst + hi) s t ∧
      (∀ j, lo ≤ j → j < hi → t.mem.byte (dst + j) = s.mem.byte (src + j)) ∧ valuesKept s t ∧
      (∀ b, b ≠ bar → t.nbar k b = s.nbar k b) ∧
      t.nbar k bar = (if c.nb = false ∧ (s.nbar k bar).stat = 0
        then ({ s.nbar k bar with exp := ((s.nbar k bar).exp + 2 ^ 24 - (hi - lo)) % 2 ^ 24, who := c.iss.slot } : Bar) else s.nbar k bar) ∧
      if hi = c.total then (∀ x ∈ (t.core k).copies, x.id ≠ id) ∧ commandOver k c.iss s t
      else ∃ x, (t.core k).copies.find? (fun c => c.id == id) = some x ∧ { x with prog := lo } = c ∧ x.prog = hi) ∧
  (∀ (s : State) k id, k < 192 → (s.stopped k = true ∨ (s.core k).copies.find? (fun c => c.id == id) = none ∨
      ∃ c, (s.core k).copies.find? (fun c => c.id == id) = some c ∧
        (c.kind = 3 ∨ c.pend = true ∨ (s.die (dieOfCore k)).clk.relock ≠ none ∨ s.earlierHeld k c.iss = true ∨ s.indexGuarded k c = true ∨
          (s.core k).hasChannel id = false)) →
    exec (.copyBlock k id) s = .next s)

/-- R294, R295, R416: commands of a collective that agree are matched, in the order of their issue within a context; else it ends with its
destination unchanged; a matched one sends its data to the other members on VC 4 (R412) and lands. None goes on before what it follows
(R246, R267).
The model's own choices in it: log 55. -/
def Obligations.CollectiveEvents : Prop :=
  (∀ (s : State) k id c (peers : List CollPeer), k < 192 → s.stopped k = false →
    (s.core k).copies.find? (fun c => c.id == id && c.kind == 3 && !c.matched) = some c →
    let same := fun (p : CollPeer) => p.op == c.op && p.ty == c.ty && p.count == c.count && p.d == c.head && p.digest == s.ctxDigest c.ctx
    if s.earlierColl c = true ∨ s.collWaits k c = true then exec (.collMatch k id peers) s = .next s
    else if peers.all (fun p => !p.abandoned && same p) then
      (s.coverOf (s.collBytes c c.sd.toNat) = none → ∃ t, exec (.collMatch k id peers) s = .next t ∧
        coreOnly k (fun c => { c with copies := [] }) { s with ports := t.ports } t ∧ collSent c s t ∧
        (t.core k).copies = (s.core k).copies.map (fun x => if x.id == id then { x with matched := true } else x)) ∧
      (∀ j lo hi i, s.coverOf (s.collBytes c c.sd.toNat) = some (j, lo, hi) → s.freeGuard j = some i →
        ∃ t, exec (.collMatch k id peers) s = .next t ∧ t.mem = s.mem ∧ t.dies = s.dies ∧ valuesKept s t ∧ collSent c s t ∧
          (t.core k).copies = (s.core k).copies.map (fun x => if x.id == id then { x with matched := true, gcore := some j, gent := some i } else x) ∧
          Tbl.get {} (t.core j).tabs.guard i = ({ v := true, bar := 0, src := k, base := lo, last := hi, copy := c.id } : Guard)) ∧
      (∀ j lo hi, s.coverOf (s.collBytes c c.sd.toNat) = some (j, lo, hi) → s.freeGuard j = none → exec (.collMatch k id peers) s = .next s)
    else ∃ t, exec (.collMatch k id peers) s = .next t ∧ valuesKept s t ∧
      (let q := (s.die (dieOfCore k)).fq
       memElse (fun a => q.base + 64 * q.tail ≤ a ∧ a < q.base + 64 * q.tail + 64) s t) ∧ (∀ x ∈ (t.core k).copies, x.id ≠ id) ∧ commandOver k c.iss s t) ∧
  (∀ (s : State) k id c (peers : List CollPeer), k < 192 → s.stopped k = false →
    (s.core k).copies.find? (fun c => c.id == id && c.kind == 3 && c.matched) = some c → s.collWaits k c = false →
    let w := tyWidth c.ty / 8
    let place := fun i j => s.collByte c (c.sd.toNat + i * w + j)
    let own := fun i => (s.collElem c i).1
    let at_ := fun i => own i :: peers.map (fun p => (p.data.getD i 0).toNat % 2 ^ tyWidth c.ty)
    let row := fun r => mergeRow c.nrm c.head (((List.range (c.head + 2)).map (fun j => own (r * (c.head + 2) + j))) ::
      peers.map (fun p => (List.range (c.head + 2)).map (fun j => (p.data.getD (r * (c.head + 2) + j) 0).toNat % 2 ^ tyWidth c.ty)))
    let sum := fun i => if c.op = 3 then (row (i / (c.head + 2))).1.getD (i % (c.head + 2)) 0 else (combineElem c.op c.ty (at_ i)).1
    (∀ i j, i < c.elems → j < w → ∃ b, place i j = some b ∧ b.dev = none ∧ ram s b.pa) →
    (∀ i j i' j' b b', i < c.elems → j < w → i' < c.elems → j' < w → place i j = some b → place i' j' = some b' → b.pa = b'.pa → i = i' ∧ j = j') →
    (∀ p ∈ peers, p.data.length = c.elems) →
    ∃ t, exec (.collCompletion k id peers) s = .next t ∧ valuesKept s t ∧ (∀ x ∈ (t.core k).copies, x.id ≠ id) ∧ commandOver k c.iss s t ∧
      memElse (fun a => ∃ i j b, i < c.elems ∧ j < w ∧ place i j = some b ∧ b.pa = a) s t ∧
      ∀ i j b, i < c.elems → j < w → place i j = some b → t.mem.byte b.pa = BitVec.ofNat 8 (sum i / 256 ^ j)) ∧
  (∀ (s : State) k id peers, k < 192 → (s.stopped k = true ∨ ∀ c ∈ (s.core k).copies, c.id = id → c.kind ≠ 3) →
    exec (.collMatch k id peers) s = .next s ∧ exec (.collCompletion k id peers) s = .next s)

/-- R74, R85, R203, R204, R211, R215, R216, R222 to R228: what the head of the crossing FIFO comes to, chunks of an MMA and their sums,
promotion, loads of the weight buffer and drains: the epilogue, and granules plain and scaled, stored and added to. In a relock a team sees
the completion of its command after it (R205).
The model's own choices in it: log 48, 50, 51, 110. -/
def Obligations.MatrixEvents : Prop :=
  (∀ (s : State) k c rest, k < 192 → s.stopped k = false → let m := (s.core k).mat
    m.fifo = c :: rest → let free := m.mmas.isEmpty && m.drain.isNone
    match c.op with
    | .none_ | .wbinv _ => ∃ t, exec (.fifoHeadLeave k) s = .next t ∧ headLeft k rest (fun m => { m with late := [] }) s t ∧ valuesKept s t ∧ matOver k c.iss s t
    | .wbld .. => ∃ t, exec (.fifoHeadLeave k) s = .next t ∧ headLeft k rest (fun m => { m with loads := [] }) s t ∧ (t.core k).mat.loads = m.loads ++ [c] ∧
        ∀ i, t.team k i = s.team k i
    | .azero n => free = true → ∃ t, exec (.fifoHeadLeave k) s = .next t ∧ headLeft k rest (fun m => { m with tiles := [], late := [] }) s t ∧ valuesKept s t ∧
        matOver k c.iss s t ∧ (∀ j, j ≠ n → (t.core k).tile j = (s.core k).tile j) ∧
        (t.core k).tile n = { p := ((s.core k).tile n).p }
    | .aprom n p => free = true → ∃ t, exec (.fifoHeadLeave k) s = .next t ∧ headLeft k rest (fun m => { m with tiles := [], late := [] }) s t ∧ valuesKept s t ∧
        matOver k c.iss s t ∧ (∀ j, j ≠ n → (t.core k).tile j = (s.core k).tile j) ∧
        (t.core k).tile n = { ((s.core k).tile n).promote.1 with p := p, cnt := 0 }
    | .ard n v row lanes => free = true → (s.team k c.iss.slot).id.gref = c.iss.gref → let e := ((s.core k).tile n).promote.1
        (∀ l, l < 1024 → lanes.getLsbD l = true → (s.team k c.iss.slot).varPending none (.v v) l = false) →
        ∃ t, exec (.fifoHeadLeave k) s = .next t ∧ headLeft k rest (fun m => { m with tiles := [], late := [] }) s t ∧ matOver k c.iss s t ∧
        (∀ i, i ≠ c.iss.slot → t.team k i = s.team k i) ∧ (∀ j, j ≠ n → (t.core k).tile j = (s.core k).tile j) ∧ (t.core k).tile n = e ∧
        ∀ r l, l < 1024 → let q := 64 * (row + l / 32) + 2 * (l % 32)
          Tbl.get {} (t.team k c.iss.slot).regs.v (1024 * r + l) = if r = v ∧ lanes.getLsbD l = true
            then { val := Tbl.get 0 e.img (q + 1) ++ Tbl.get 0 e.img q, pz := Tbl.get false e.pz q || Tbl.get false e.pz (q + 1) }
            else Tbl.get {} (s.team k c.iss.slot).regs.v (1024 * r + l)
    | .awr n row cells => free = true → (cells.map Prod.fst).Nodup → (∀ x ∈ cells, x.1 < 1024) → let e := ((s.core k).tile n).promote.1
        ∃ t, exec (.fifoHeadLeave k) s = .next t ∧ headLeft k rest (fun m => { m with tiles := [], late := [] }) s t ∧ valuesKept s t ∧ matOver k c.iss s t ∧
        (∀ j, j ≠ n → (t.core k).tile j = (s.core k).tile j) ∧
        (∀ x ∈ cells, let q := 64 * (row + x.1 / 32) + 2 * (x.1 % 32)
          Tbl.get 0 ((t.core k).tile n).img q = x.2.extractLsb' 0 32 ∧ Tbl.get 0 ((t.core k).tile n).img (q + 1) = x.2.extractLsb' 32 32 ∧
          Tbl.get false ((t.core k).tile n).pz q = false ∧ Tbl.get false ((t.core k).tile n).pz (q + 1) = false) ∧
        ∀ q, (∀ x ∈ cells, q / 2 ≠ 32 * (row + x.1 / 32) + x.1 % 32) → Tbl.get 0 ((t.core k).tile n).img q = Tbl.get 0 e.img q
    | .adrn .. => free = true → ∃ t, exec (.fifoHeadLeave k) s = .next t ∧ headLeft k rest (fun m => { m with drain := none }) s t ∧
        (t.core k).mat.drain = some { cmd := c } ∧ ∀ i, t.team k i = s.team k i
    | .mma _ _ code _ w a x => m.drain = none → s.mmaHeld k c code a x = false → let g := (s.core k).group c.iss.grp
        let n := aBytes code (x.extractLsb' 0 16).toNat
        g.base + a.toNat + n ≤ 0x30_0000 →
        ∃ t run, exec (.fifoHeadLeave k) s = .next t ∧ headLeft k rest (fun m => { m with mmas := [], aelog := 0 }) s t ∧
        (t.core k).mat.mmas = m.mmas ++ [run] ∧ run.cmd = c ∧ run.slot = (s.core k).slot w ∧ run.chunks = 0 ∧ run.stat = 0 ∧
        run.recs = (g.sBytes k a.toNat n).map (fun b => (s.mem.byte b.pa, s.mem.isBad b.pa)) ∧
        ∀ i, t.team k i = s.team k i) ∧
  (∀ (s : State) k, k < 192 → let m := (s.core k).mat
    (s.stopped k = true ∨ m.fifo = [] ∨
      ∃ c rest, m.fifo = c :: rest ∧ (m.mmas.isEmpty && m.drain.isNone) = false ∧ match c.op with
        | .none_ | .wbinv _ | .wbld .. => False
        | .mma .. => m.drain.isSome = true
        | _ => True) → exec (.fifoHeadLeave k) s = .next s) ∧
  (∀ (s : State) k run rest clear tr code n w a x, k < 192 → (s.stopped k = false ∨ run.chunks ≠ 0) → (s.core k).mat.mmas = run :: rest →
    run.cmd.op = .mma clear tr code n w a x →
    let kk := (x.extractLsb' 0 16).toNat
    let span := spanOf code run.slot.spar
    let old := (s.core k).tile n
    let r := chunkTile run code tr (x.extractLsb' 16 16).toNat span (if clear && run.chunks == 0 then { p := old.p } else old)
    ∃ t, exec (.mmaChunk k) s = .next t ∧ t.mem = s.mem ∧ t.dies = s.dies ∧ valuesKept s t ∧ (∀ j, j ≠ k → t.core j = s.core j) ∧
      (∀ j, j ≠ n → (t.core k).tile j = (s.core k).tile j) ∧ (t.core k).tile n = r.1 ∧
      (∃ u : Tile, u.img = (if clear && run.chunks == 0 then [] else old.img) ∧ u.p = old.p ∧
        u.cnt = (if clear && run.chunks == 0 then 0 else old.cnt) + 1 ∧
        (∀ e, e < 4096 → ∃ inv, Tbl.get 0 u.part e = BitVec.ofNat 26 (chunkSum (chunkTerms run code tr (x.extractLsb' 16 16).toNat span
          (if clear && run.chunks == 0 then 0 else Tbl.get 0 old.part e) e) inv).1) ∧
        r.1 = if u.cnt = u.p then u.promote.1 else u) ∧
      if kk ≤ (run.chunks + 1) * span then (t.core k).mat.mmas = rest ∧ matOver k run.cmd.iss s t
      else (t.core k).mat.mmas = { run with chunks := run.chunks + 1, stat := run.stat ||| r.2 } :: rest) ∧
  (∀ ts inv, (ts.any Fl.isNan = true ∨ (.inf false ∈ ts ∧ .inf true ∈ ts) → (chunkSum ts inv).1 = 0x1FF_0000 ∧
      (chunkSum ts inv).2 = if inv = true ∨ ts.any Fl.isNan = false then stNV else 0) ∧
    (∀ neg, ts.any Fl.isNan = false → .inf neg ∈ ts → .inf (!neg) ∉ ts → chunkSum ts inv = (if neg then 0x3FE_0000 else 0x1FE_0000, 0)) ∧
    ((∀ x ∈ ts, ∃ neg e, x = .fin neg 0 e) → ts ≠ [] → chunkSum ts inv = (if ts.all Fl.isNeg then 0x200_0000 else 0, 0)) ∧
    ∀ q : Int, (∀ x ∈ ts, ∃ neg m e, x = .fin neg m e ∧ q ≤ e ∧ m * 2 ^ (e - q).toNat < 2 ^ 41) →
      let sm : Int := (ts.map (fun x => (match x with | .fin neg m e => (if neg then (-1 : Int) else 1) * ((m * 2 ^ (e - q).toNat : Nat) : Int) | _ => 0 : Int))).sum
      sm ≠ 0 → sm.natAbs < 2 ^ 18 → -126 ≤ q → q ≤ 110 →
      (chunkSum ts inv).2 = 0 ∧ ∃ m e, decodeFp 0x15 (chunkSum ts inv).1 = .fin (decide (sm < 0)) m e ∧ (m : ℚ) * 2 ^ e = sm.natAbs * 2 ^ q) ∧
  (∀ (u : Tile), u.promote.1.part = [] ∧ u.promote.1.cnt = 0 ∧ u.promote.1.p = u.p ∧ u.promote.1.pz = u.pz ∧
    ∀ e, Tbl.get 0 u.promote.1.img e =
      BitVec.ofNat 32 (ne32 (sumFl [decodeFp 0x10 (Tbl.get 0 u.img e).toNat, decodeFp 0x15 (Tbl.get 0 u.part e).toNat]).1)) ∧
  (∀ (s : State) k, k < 192 → ((s.core k).mat.mmas = [] ∨ (s.stopped k = true ∧ ∃ run rest, (s.core k).mat.mmas = run :: rest ∧ run.chunks = 0)) →
    exec (.mmaChunk k) s = .next s) ∧
  (∀ (s : State) k n c a b x, k < 192 → n < 8 → s.stopped k = false → (s.core k).mat.loads = [c] → c.op = .wbld n a b x → (s.die (dieOfCore k)).clk.relock = none →
    let code := (x.extractLsb' 0 4).toNat
    let sp := (x.extractLsb' 4 2).toNat
    let nb := (x.extractLsb' 8 9).toNat
    let size := 4 * nb * wRecord code sp
    s.imageGuarded c.iss.tenant k (imageChunks a.toNat b.toNat ((size + 251) / 252)) = false →
    ∃ t, exec (.wbldCompletion k n) s = .next t ∧ valuesKept s t ∧ (t.core k).mat.loads = [] ∧ commandOver k c.iss s t ∧
      (∀ j, j ≠ n → (t.core k).slot j = (s.core k).slot j) ∧
      match s.loadImage c.iss.tenant k a.toNat b.toNat code sp (4 * nb) (List.range ((size + 251) / 252)) [] with
      | .ok bs => ((t.core k).slot n).valid = true ∧ ((t.core k).slot n).load = false ∧ ((t.core k).slot n).fmt = code ∧
          ((t.core k).slot n).spar = sp ∧ ((t.core k).slot n).nb = nb ∧ t.mem = s.mem ∧
          ∀ i, Tbl.get 0 ((t.core k).slot n).data i = if i < size then bs.getD i 0 else 0
      | .error _ => ((t.core k).slot n).valid = false ∧ ((t.core k).slot n).load = false) ∧
  (∀ (s : State) k n, k < 192 → (s.stopped k = true ∨ (s.core k).mat.loads = [] ∨ (s.die (dieOfCore k)).clk.relock ≠ none ∨
      ∃ c a b x, (s.core k).mat.loads = [c] ∧ c.op = .wbld n a b x ∧ s.imageGuarded c.iss.tenant k (imageChunks a.toNat b.toNat
        ((4 * (x.extractLsb' 8 9).toNat * wRecord (x.extractLsb' 0 4).toNat (x.extractLsb' 4 2).toNat + 251) / 252)) = true) →
    exec (.wbldCompletion k n) s = .next s) ∧
  (∀ (s : State) k dr z n a d, k < 192 → (s.core k).mat.drain = some dr → dr.cmd.op = .adrn z n a d → dr.pend = false → dr.ys = [] → dr.g = 0 → dr.stat = 0 →
    s.stopped k = false → (dRelease d = false ∨ s.earlierHeld k dr.cmd.iss = false) →
    dPlain d = true → dDspace d = true → ((s.core k).tile n).pz = [] →
    let g := (s.core k).group dr.cmd.iss.grp
    let at_ := winBase k + g.base
    64 * dEl d ≤ dStride d → dDst d + 63 * dStride d + 64 * dEl d ≤ g.size → g.base + g.size ≤ 0x30_0000 →
    (dRes d ≠ 0 → dRspace d = true ∧ dRes d + 63 * dRstride d + 64 * dRel d ≤ g.size) →
    (dRes d ≠ 0 ∨ dAdd d = true → ∀ n, n < g.size → s.mem.isBad (at_ + n) = false) →
    (∀ e ∈ (s.core k).tabs.guard, e.2.v = false) →
    let img := ((s.core k).tile n).promote.1.img
    let place := fun i j => at_ + dDst d + i * dStride d + j * dEl d
    let old := fun i j => leNat ((List.range (dEl d)).map (fun b => s.mem.byte (place i j + b)))
    ∃ t, exec (.drainExecute k) s = .next t ∧ valuesKept s t ∧ (t.core k).mat.drain = none ∧ matOver k dr.cmd.iss s t ∧
      (∀ i j b, i < 64 → j < 64 → b < dEl d → t.mem.byte (place i j + b) =
        BitVec.ofNat 8 (plainOut d (drained d i j (Tbl.get 0 img (64 * i + j)) (residualAt s at_ d i j)) (old i j) / 256 ^ b)) ∧
      memElse (fun x => ∃ i j, i < 64 ∧ j < 64 ∧ place i j ≤ x ∧ x < place i j + dEl d) s t ∧
      (z = true → ((t.core k).tile n).img = [] ∧ ((t.core k).tile n).part = [])) ∧
  (∀ (s : State) k dr z n a d (pl : Nat → Nat → Nat), k < 192 → (s.core k).mat.drain = some dr → dr.cmd.op = .adrn z n a d →
    s.drainFree k dr d = true → dr.g = 15 → dr.ys ≠ [] → dPlain d = true → dDspace d = false →
    (∀ i j b, 48 ≤ i → i < 64 → 48 ≤ j → j < 64 → b < dEl d →
      s.drainByte k dr.cmd false (dAdd d) true ((dDst d + i * dStride d + j * dEl d + b) % 2 ^ 64) = .ok { pa := pl i j + b } ∧
      ram s (pl i j + b) ∧ s.guarded { pa := pl i j + b } = false ∧ (dAdd d = true → s.mem.isBad (pl i j + b) = false)) →
    (∀ i j i' j', 48 ≤ i → i < 64 → 48 ≤ j → j < 64 → 48 ≤ i' → i' < 64 → 48 ≤ j' → j' < 64 →
      apart (pl i j) (dEl d) (pl i' j') (dEl d) ∨ (i = i' ∧ j = j')) →
    let old := fun i j => leNat ((List.range (dEl d)).map (fun b => s.mem.byte (pl i j + b)))
    ∃ t, exec (.drainExecute k) s = .next t ∧ valuesKept s t ∧ (t.core k).mat.drain = none ∧ matOver k dr.cmd.iss s t ∧
      (∀ i j b, 48 ≤ i → i < 64 → 48 ≤ j → j < 64 → b < dEl d →
        t.mem.byte (pl i j + b) = BitVec.ofNat 8 (plainOut d (dr.ys.getD (64 * i + j) 0) (old i j) / 256 ^ b)) ∧
      memElse (fun x => ∃ i j, 48 ≤ i ∧ i < 64 ∧ 48 ≤ j ∧ j < 64 ∧ pl i j ≤ x ∧ x < pl i j + dEl d) s t) ∧
  (∀ (s : State) k dr z n a d pay ent, k < 192 → (s.core k).mat.drain = some dr → dr.cmd.op = .adrn z n a d →
    s.drainFree k dr d = true → dr.g = 15 → dr.ys ≠ [] → dPlain d = false → 1 ≤ dOutf d → dOutf d ≤ 8 →
    s.granulePlace k dr.cmd d 15 = .ok (none, pay, ent) → let pb := payloadBytes (dOutf d)
    apart pay pb ent 16 →
    (∀ x, ((pay ≤ x ∧ x < pay + pb) ∨ (ent ≤ x ∧ x < ent + 16)) →
      ram s x ∧ s.guarded { pa := x } = false ∧ (dAdd d = true → s.mem.isBad x = false)) →
    let read := fun a n => (List.range n).map (fun i => s.mem.byte (a + i))
    let new := tileOut d ((List.range 256).map (fun e => dr.ys.getD (64 * (48 + e / 16) + 48 + e % 16) 0)) (read pay pb) (leNat (read ent 16))
    ∃ t, exec (.drainExecute k) s = .next t ∧ valuesKept s t ∧ (t.core k).mat.drain = none ∧ matOver k dr.cmd.iss s t ∧
      (∀ i, i < pb → t.mem.byte (pay + i) = new.1.getD i 0) ∧ (∀ i, i < 16 → t.mem.byte (ent + i) = BitVec.ofNat 8 (new.2 / 256 ^ i)) ∧
      memElse (fun x => (pay ≤ x ∧ x < pay + pb) ∨ (ent ≤ x ∧ x < ent + 16)) s t) ∧
  (∀ (s : State) k dr z n a d e, k < 192 → (s.core k).mat.drain = some dr → dr.cmd.op = .adrn z n a d →
    s.drainFree k dr d = true → dr.g < 16 → dr.ys ≠ [] → dPlain d = false → s.granulePlace k dr.cmd d dr.g = .error e →
    let q := (s.die (dieOfCore k)).fq
    ∃ t, exec (.drainExecute k) s = .next t ∧ valuesKept s t ∧ (t.core k).mat.drain = some { dr with pend := true } ∧
      memElse (fun x => q.base ≤ x ∧ x < q.base + 65536) s t) ∧
  (∀ (s : State) k, k < 192 → ((s.core k).mat.drain = none ∨ ∃ dr, (s.core k).mat.drain = some dr ∧ (dr.pend = true ∨ (s.stopped k = true ∧ dr.ys = []) ∨
      ∃ z n a d, dr.cmd.op = .adrn z n a d ∧ dRelease d = true ∧ s.earlierHeld k dr.cmd.iss = true)) → exec (.drainExecute k) s = .next s)

/-- R362, R363, R417: messages of grid barriers between devices: an arrival counts where the barrier is counted, and one that ends a phase
is answered to every other member on VC 5; a completion ends the phase here, or abandons the barrier. A barrier that its task leaves keeps
the arrivals of other devices.
The model's own choices in it: log 53. -/
def Obligations.GridBarrierEvents : Prop :=
  (∀ s b, b < 4 → let g : Grid := Tbl.get {} s.io.grids b
    let only := fun (t : State) (x : Bar) => { t with io := { t.io with grids := s.io.grids }, ports := s.ports } = s ∧
      (∀ j, j ≠ b → Tbl.get ({} : Grid) t.io.grids j = Tbl.get {} s.io.grids j) ∧ (Tbl.get {} t.io.grids b : Grid) = { g with bar := x }
    (∀ dev n, let x : Bar := { g.bar with count := if g.bar.count = 0 then n else g.bar.count, arr := g.bar.arr + 1 }
      if (gridMembers s b).headD s.io.domidx = s.io.domidx ∧ dev ∈ gridMembers s b ∧ g.bar.stat = 0 then
        (phaseOver x → ∃ t, exec (.gridArrivalMessage b dev n) s = .next t ∧
          only t { x with phase := !x.phase, arr := 0, arrm := [], count := 0, last := x.count } ∧
          gridSays b ((gridMembers s b).filter (fun d => d != s.io.domidx)) [1, 0] s t) ∧
        (¬ phaseOver x → ∃ t, exec (.gridArrivalMessage b dev n) s = .next t ∧ only t x ∧ t.ports = s.ports)
      else exec (.gridArrivalMessage b dev n) s = .next s) ∧
    ∀ st, ∃ t, exec (.gridCompletionMessage b st) s = .next t ∧ t.ports = s.ports ∧
      only t (if st = 0 then { g.bar with phase := !g.bar.phase, arr := 0, arrm := [], count := 0, last := g.bar.count }
        else { g.bar with stat := max g.bar.stat st })) ∧
  (∀ b : Bar, b.arrm.length ≤ b.arr → b.released.stat = 0 ∧ b.released.phase = b.phase ∧ b.released.arr = b.arr - b.arrm.length ∧
    b.released.arrm = [] ∧ b.released.count = if b.arr = b.arrm.length then 0 else b.count)

/-- R399, R401 to R405, R416, R428: words of the I/O block, writes of registers and of the mailbox by the host, BAR 4, ATS invalidations. An
access of a VF to bytes under a copy in flight waits (R246).
The model's own choices in it: log 63, 87, 88, 117, 118, 135. -/
def Obligations.HostEvents : Prop :=
  (∀ s k (w : BitVec 256), k < 256 → let ax := fun i => (w.extractLsb' (160 + 8 * i) 8).toNat
    let nax := (w.extractLsb' 228 3).toNat
    let nmem := (w.extractLsb' 239 8).toNat
    let fits := ((List.range (nax + 1)).map (fun i => ax i + 1)).foldl (· * ·) 1 = nmem + 1 ∧ (∀ i, i < 8 → nax < i → ax i = 0) ∧
      (w.extractLsb' 231 8).toNat ≤ nmem
    ∃ t, exec (.contextEntryWrite k w) s = .next t ∧ ioOnly (fun x => { x with ctxs := [] }) s t ∧
      (∀ j, j ≠ k → Tbl.get 0 t.io.ctxs j = Tbl.get 0 s.io.ctxs j) ∧
      ((Tbl.get 0 t.io.ctxs k).getLsbD 255 = true ↔ w.getLsbD 255 = true ∧ fits) ∧
      ∀ n, n < 255 → (Tbl.get 0 t.io.ctxs k).getLsbD n =
        if n = 0 ∨ (120 ≤ n ∧ n < 224) ∨ 228 ≤ n then w.getLsbD n else false) ∧
  (∀ s k (w : BitVec 512), k < 4 → let g : Grid := Tbl.get {} s.io.grids k
    ∃ t, exec (.gridMapWrite k w) s = .next t ∧ ioOnly (fun x => { x with grids := [] }) s t ∧
      (∀ j, j ≠ k → Tbl.get ({} : Grid) t.io.grids j = Tbl.get {} s.io.grids j) ∧
      Tbl.get {} t.io.grids k = if g.holder.isSome then g
        else { g with map := w.extractLsb' 0 256, tenant := (w.extractLsb' 256 8).toNat, en := w.getLsbD 264 }) ∧
  (∀ s k (w : BitVec 512), k < 16 → let x : Import := Tbl.get {} s.io.imports k
    ∃ t, exec (.importWindowWrite k w) s = .next t ∧ ioOnly (fun x => { x with imports := [] }) s t ∧
      (∀ j, j ≠ k → Tbl.get ({} : Import) t.io.imports j = Tbl.get {} s.io.imports j) ∧
      let y : Import := Tbl.get {} t.io.imports k
      y.src = w.extractLsb' 256 256 ∧ y.en = w.getLsbD 136 ∧
      if x.en then y.tenant = x.tenant ∧ y.limit = x.limit ∧ y.base = x.base
      else y.tenant = (w.extractLsb' 128 8).toNat ∧ y.limit = (w.extractLsb' 80 48).toNat * 65536 ∧ y.base = (w.extractLsb' 16 48).toNat * 65536) ∧
  (∀ (s : State) k (w : Word), k < 16 → let old := s.binding k
    if (vfBound old = true ∧ s.tenantResident (vfTenant old) = true) ∨ vfTenant w = 0xFF then exec (.vfBindingWrite k w) s = .next s
    else ∃ t, exec (.vfBindingWrite k w) s = .next t ∧ ioOnly (fun x => { x with vfb := [] }) s t ∧
      ∀ j, Tbl.get 0 t.io.vfb j = if j = k then w &&& 0xFFFF_FFF8_0000_0000 else Tbl.get 0 s.io.vfb j) ∧
  (∀ s off data, off < 0x70_0000 ∨ 0x80_0000 ≤ off → s.ctrl.boot ≠ 7 ∨ (off < 0x40_0000 ∧ s.ctrl.power = 2) ∨ 0x50_0000 ≤ off →
    exec (.hostRegisterWrite off data) s = .next s) ∧
  (∀ s off (data : List Byte), let put := exec (.hostRegisterWrite (0x70_0000 + off) data) s
    let mailOnly0 := fun (t : State) => { t with ctrl := s.ctrl } = s ∧ { t.ctrl with mbox := [], mreq := [] } = { s.ctrl with mbox := [], mreq := [] } ∧
      ∀ j, j ≠ 0 → Tbl.get 0 t.ctrl.mbox j = Tbl.get 0 s.ctrl.mbox j
    (off < 0x10_0000 → s.ctrl.boot = 0 ∨ s.pending 0 = true → put = .next s) ∧
    (s.ctrl.boot ≠ 0 → s.pending 0 = false →
      (0x100 ≤ off → off + data.length ≤ 0x1100 → ∃ t, put = .next t ∧ mailOnly0 t ∧ Tbl.get 0 t.ctrl.mbox 0 = Tbl.get 0 s.ctrl.mbox 0 ∧
        ∀ a, Tbl.get 0 t.ctrl.mreq a = if off - 0x100 ≤ a ∧ a < off - 0x100 + data.length then data.getD (a + 0x100 - off) 0
          else Tbl.get 0 s.ctrl.mreq a) ∧
      (off = 0 → data.length = 8 → let w : Word := BitVec.ofNat 64 (leNat data)
        let code := (w.extractLsb' 0 8).toNat
        let tag := (w.extractLsb' 32 16).toNat
        let len := (w.extractLsb' 16 16).toNat
        let load := (List.range (min 4096 len)).map (fun i => Tbl.get 0 s.ctrl.mreq i)
        (w.getLsbD 63 = false → ∃ t, put = .next t ∧ mailOnly0 t ∧ t.ctrl.mreq = s.ctrl.mreq ∧
          Tbl.get 0 t.ctrl.mbox 0 = (Tbl.get 0 s.ctrl.mbox 0 &&& 0x4000_0000_0000_FF00) ||| (w &&& 0x0000_FFFF_FFFF_00FF)) ∧
        (w.getLsbD 63 = true → (∀ i tag' m, mailAsk i = some (0, tag', load, m) → tag' = tag → m.code = code →
            (∀ a b c d, i = .fwload a b c d → d = []) → put = exec i s) ∧
          (code ∉ [0x01, 0x02, 0x03, 0x10, 0x11, 0x12, 0x13, 0x20, 0x21, 0x22, 0x40, 0x41, 0x42, 0x43] →
            ∃ t, put = .next t ∧ replied 0 code tag (if s.ctrl.boot = 7 then 2 else 7) [] s t))))) ∧
  (∀ s d (data : List Byte), s.ctrl.boot = 7 → s.ctrl.power ≠ 2 → d < 4 → let q := 0x10_0000 * d
    let put := fun o => exec (.hostRegisterWrite (q + o) data) s
    (data.length = 16 → let w := BitVec.ofNat 128 (leNat data)
      (∀ i, i < 64 → put (16 * i) = exec (.taskQueueStateWrite (64 * d + i) w) s) ∧ put 0x1080 = exec (.kill d w) s ∧ put 0x1100 = exec (.resume d w) s ∧
      put 0x1040 = match (w.extractLsb' 125 2).toNat with
        | 0 => exec (.invalidateAll d w) s
        | 1 => exec (.invalidateTenant d w) s
        | 2 => exec (.invalidatePages d w) s
        | _ => invalidate d w 4 (fun _ => false) s) ∧
    (data.length = 32 → put 0x10C0 = exec (.preempt d (BitVec.ofNat 256 (leNat data))) s) ∧
    (data.length = 8 → let w : Word := BitVec.ofNat 64 (leNat data)
      put 0x1140 = exec (.resolve d w) s ∧
      (∃ t, put 0x1000 = .next t ∧ dieOnly d (fun x => { x with disp := { x.disp with steal := 0 } }) s t ∧ (t.die d).disp.steal = w.toNat % 2 ^ 20) ∧
      (∃ t, put 0x1008 = .next t ∧ dieOnly d (fun x => { x with heaptab := 0 }) s t ∧ (t.die d).heaptab = (w.extractLsb' 6 46).toNat * 64) ∧
      (∃ t, put 0x1010 = .next t ∧ dieOnly d (fun x => { x with fq := { x.fq with en := false, base := 0 } }) s t ∧ (t.die d).fq.en = w.getLsbD 15 ∧
        (t.die d).fq.base = if (s.die d).fq.en then (s.die d).fq.base else (w.extractLsb' 16 36).toNat * 65536) ∧
      (∃ t, put 0x1018 = .next t ∧ dieOnly d (fun x => { x with fq := { x.fq with lost := 0 } }) s t ∧
        (t.die d).fq.lost = if w.extractLsb' 48 16 = 0 then 0 else (s.die d).fq.lost) ∧
      (∃ t, put 0x1020 = .next t ∧ dieOnly d (fun x => { x with notify := 0 }) s t ∧ (t.die d).notify = w &&& 0x8000_0000_0000_0FFF) ∧
      ∀ i, i < 1024 → ∃ t, put (0x2000 + 8 * i) = .next t ∧ dieOnly d (fun x => { x with dcs := [] }) s t ∧
        t.dc (1024 * d + i) = { owner := (w.extractLsb' 56 8).toNat, err := w.getLsbD 32, val := w.extractLsb' 0 32 } ∧
        ∀ j, j < 1024 → j ≠ i → t.dc (1024 * d + j) = s.dc (1024 * d + j))) ∧
  (∀ (s : State) (data : List Byte), s.ctrl.boot = 7 → let put := fun o => exec (.hostRegisterWrite (0x40_0000 + o) data) s
    (data.length = 8 → let w : Word := BitVec.ofNat 64 (leNat data)
      (∀ k, k < 16 → put (8 * k) = exec (.vfBindingWrite k w) s) ∧
      put 0x1000 = .next { s with io := { s.io with domidx := w.toNat % 256 } } ∧
      (∀ k, k < 255 → ∃ t, put (0x800 + 8 * k) = .next t ∧ ioOnly (fun x => { x with roots := [] }) s t ∧
        ∀ j, Tbl.get 0 t.io.roots j = if j = k then w &&& 0x800F_FFFF_FFFF_8000 else Tbl.get 0 s.io.roots j)) ∧
    (data.length = 2 → ∀ k, k < 256 → ∃ t, put (0x5000 + 2 * k) = .next t ∧ ioOnly (fun x => { x with routes := [] }) s t ∧
      ∀ j, Tbl.get 0 t.io.routes j = if j = k then BitVec.ofNat 16 (leNat data) else Tbl.get 0 s.io.routes j) ∧
    (data.length = 32 → ∀ k, k < 256 → put (0x2000 + 32 * k) = exec (.contextEntryWrite k (BitVec.ofNat 256 (leNat data))) s) ∧
    (data.length = 64 → (∀ k, k < 4 → put (0x4000 + 64 * k) = exec (.gridMapWrite k (BitVec.ofNat 512 (leNat data))) s) ∧
      ∀ k, k < 16 → put (0x6000 + 64 * k) = exec (.importWindowWrite k (BitVec.ofNat 512 (leNat data))) s)) ∧
  (∀ s fn off len, fn < 17 → ∃ t, exec (.hostMemoryRead fn off len) s = .next t ∧
    ((s.fnOpen fn = false ∨ bar4Size fn < off + len) → answered 1 [] s t) ∧
    (s.fnOpen fn = true → off + len ≤ bar4Size fn → fn = 0 → (∀ i, i < len → s.pfByte (off + i) = true) →
      answered (if s.mem.unc off len then 3 else 0) ((List.range len).map (fun i => s.mem.byte (off + i))) s t) ∧
    (s.fnOpen fn = true → off + len ≤ bar4Size fn → fn = 0 → (∃ i, i < len ∧ s.pfByte (off + i) = false) → answered 1 [] s t) ∧
    (s.fnOpen fn = true → off + len ≤ bar4Size fn → fn ≠ 0 → s.vfBytes (vfTenant (s.binding (fn - 1))) off len true false = none →
      { t with io := s.io } = s ∧ t.io.answers = s.io.answers ++ [(2, [])] ∧ Tbl.get 0 t.io.fnErrs fn = Tbl.get 0 s.io.fnErrs fn + 1) ∧
    (∀ bs x, s.fnOpen fn = true → off + len ≤ bar4Size fn → fn ≠ 0 → s.vfBytes (vfTenant (s.binding (fn - 1))) off len true false = some (bs, x) →
      if bs.any s.guarded then t = s else answered (if (s.seeBytes 0 0 bs).2 then 3 else 0) (s.seeBytes 0 0 bs).1 s t)) ∧
  (∀ s fn off data, fn < 17 → ∃ t, exec (.hostMemoryWrite fn off data) s = .next t ∧
    ((s.fnOpen fn = false ∨ bar4Size fn < off + data.length) → t = s) ∧
    (s.fnOpen fn = true → off + data.length ≤ bar4Size fn → fn = 0 → (∀ i, i < data.length → s.pfByte (off + i) = true) →
      { t with mem := s.mem } = s ∧ (∀ i, i < data.length → t.mem.byte (off + i) = data.getD i 0) ∧
      ∀ a, (a < off ∨ off + data.length ≤ a) → t.mem.byte a = s.mem.byte a) ∧
    (s.fnOpen fn = true → off + data.length ≤ bar4Size fn → fn = 0 → (∃ i, i < data.length ∧ s.pfByte (off + i) = false) → t = s) ∧
    (s.fnOpen fn = true → off + data.length ≤ bar4Size fn → fn ≠ 0 →
      (∀ bs, s.vfBytes (vfTenant (s.binding (fn - 1))) off data.length false true ≠ some (bs, false)) →
      ioOnly (fun x => { x with fnErrs := [] }) s t ∧ Tbl.get 0 t.io.fnErrs fn = Tbl.get 0 s.io.fnErrs fn + 1) ∧
    ∀ bs, s.fnOpen fn = true → off + data.length ≤ bar4Size fn → fn ≠ 0 →
      s.vfBytes (vfTenant (s.binding (fn - 1))) off data.length false true = some (bs, false) → (bs.any s.guarded = true → t = s) ∧ (bs.any s.guarded = false →
      (∀ b ∈ bs, b.dev = none ∧ (regionOf s.ddr b.pa).plain = true) → (bs.map (fun b => b.pa)).Nodup →
      { t with mem := s.mem } = s ∧ (∀ x ∈ bs.zip data, plainByte t x.1.pa = x.2) ∧ memElse (fun a => ∃ b ∈ bs, b.pa = a) s t)) ∧
  (∀ s fn va, fn < 17 → ∃ t, exec (.atsInvalidation fn va) s = .next t ∧ ioOnly (fun x => { x with ats := [] }) s t ∧
    t.io.ats = s.io.ats.filter (fun e => e ≠ (fn, va / 4096)))

/-- R410 to R415: flits, training and lanes of a port: what is accepted, sent again and sent next; the lanes of a Dravim link, of which a
second weak one is fatal (R321); requests of other devices, performed here or passed on; a path that is down. In STANDBY the ports are
off (R427).
The model's own choices in it: log 83, 84, 85, 86, 119, 134, 135. -/
def Obligations.LinkEvents : Prop :=
  (∀ s n f, n < 16 → s.ctrl.power ≠ 2 → let p : Port := Tbl.get {} s.ports n
    let h := flitHead f
    ∃ t, exec (.flitReceive n f) s = .next t ∧ portOnly n s t ∧ let q : Port := Tbl.get {} t.ports n
      (p.training = true → q = p) ∧
      (p.training = false → flitOk f = false → q.rxSeq = p.rxSeq ∧ q.got = p.got ∧ q.rejecting = true ∧ q.skid = p.skid) ∧
      (p.training = false → flitOk f = true → q.stopIn = BitVec.ofNat 8 (fStop h)) ∧
      (p.training = false → flitOk f = true → fKind h = 1 →
        if fSeq h = (p.rxSeq + 1) % 4096
        then q.rxSeq = fSeq h ∧ q.got = p.got ++ [f] ∧ q.rejecting = false ∧ Tbl.get 0 q.skid (fVc h) = Tbl.get 0 p.skid (fVc h) + 1
        else q.rxSeq = p.rxSeq ∧ q.got = p.got ∧ q.skid = p.skid) ∧
      (p.training = false → flitOk f = true → fKind h = 2 → p.weak = [] → q.shadow = (p.shadow + 1) % 9) ∧
      (p.training = false → flitOk f = true → fAckv h = true →
        let left := p.replay.dropWhile (fun x => decide ((fAseq h + 4096 - fSeq (flitHead x)) % 4096 < 2048))
        q.replay.take left.length = left ∧ q.replay.length ≤ left.length + 1 ∧
        (fNak h = true → left ≠ [] →
          if left.length = p.replay.length ∧ 16 ≤ p.resends then q.training = true ∧ q.replay = left
          else q.training = false ∧ ∃ more, q.sent = p.sent ++ left ++ more)) ∧
      (p.training = false → p.rxSeq < 4096 → flitOk f = true → fKind h = 0 → fAckv h = false →
        (512 ≤ p.replay.length → q.queued = p.queued ∧ q.sent = p.sent) ∧
        (p.replay.length < 512 → (∃ g ∈ p.queued, g.vc < 6 ∧ (fStop h).testBit g.vc = false) →
          ∃ g, g ∈ p.queued ∧ g.vc < 6 ∧ (fStop h).testBit g.vc = false ∧ q.queued = p.queued.erase g ∧
            (∃ x, q.sent = p.sent ++ [x] ∧ q.replay = p.replay ++ [x] ∧ fVc (flitHead x) = g.vc ∧ fSeq (flitHead x) = p.txSeq % 4096 ∧
              fKind (flitHead x) = 1) ∧
            ((∃ e ∈ p.queued, e.vc ∈ [0, 1, 5] ∧ (fStop h).testBit e.vc = false) → g.vc ∈ [0, 1, 5]) ∧
            (g.vc = 4 → (∃ e ∈ p.queued, e.vc = 4 ∧ e.cls = 0) → g.cls = 0)))) ∧
  (∀ s n, n < 16 → s.ctrl.power ≠ 2 → ∃ t, exec (.linkRetrain n) s = .next t ∧ portOnly n s t ∧
    Tbl.get {} t.ports n = { (Tbl.get {} s.ports n : Port) with training := true, resends := 0 }) ∧
  (∀ (s : State) n lanes, n < 16 → let p : Port := Tbl.get {} s.ports n
    let w := if 2 ≤ p.weak.length then min lanes 4 else min lanes 8
    if p.training = true ∧ s.ctrl.power ≠ 2 then
      ∃ t, exec (.linkRetrainComplete n lanes) s = .next t ∧ { t with ports := s.ports, ctrl := s.ctrl, io := s.io } = s ∧
        Tbl.get {} t.ports n = { p with training := false, resends := 0, lanes := w, rejecting := false, sent := p.sent ++ p.replay } ∧
        { t.io with down := s.io.down } = s.io ∧ t.io.down = s.io.down.filter (fun d => !(Tbl.get 0 s.io.routes d).getLsbD n) ∧
        { t.ctrl with errors := s.ctrl.errors } = s.ctrl ∧ t.ctrl.errors = s.ctrl.errors ++
          (if w < 8 then [{ kind := 7, die := n, unit := w, detail := 0, time := s.time }] else [])
    else exec (.linkRetrainComplete n lanes) s = .next s) ∧
  (∀ s n (found : List Nat), n < 16 → let p : Port := Tbl.get {} s.ports n
    let new := ((found.filter (· < 9)).filter (fun l => !p.weak.contains l)).dedup
    if s.ctrl.power = 2 ∨ p.training = true then exec (.laneRotation n found) s = .next s
    else ∃ t, exec (.laneRotation n found) s = .next t ∧ { t with ports := s.ports, ctrl := s.ctrl } = s ∧
      { t.ctrl with errors := s.ctrl.errors } = s.ctrl ∧
      t.ctrl.errors = s.ctrl.errors ++ new.map (fun l => { kind := 5, die := n, unit := l, detail := 0, time := s.time }) ∧
      (∀ j, j ≠ n → Tbl.get ({} : Port) t.ports j = Tbl.get {} s.ports j) ∧ let q : Port := Tbl.get {} t.ports n
      q.weak = p.weak ++ new ∧ q.shadow = (p.weak ++ new).headD ((p.shadow + 1) % 9) ∧ (q.training = true ↔ 2 ≤ q.weak.length ∧ new ≠ []) ∧
        q.replay = p.replay ∧ q.queued = p.queued ∧ q.sent.length = p.sent.length + if q.shadow = p.shadow then 0 else 1) ∧
  (∀ s n (found : List Nat), 16 ≤ n → n < 30 → let p : Dravim := Tbl.get {} s.ctrl.dravim (n - 16)
    let new := ((found.filter (· < Config.dravimLanes)).filter (fun l => !p.weak.contains l)).dedup
    let lost := 2 ≤ (p.weak ++ new).length ∧ new ≠ []
    if s.ctrl.power = 2 then exec (.laneRotation n found) s = .next s
    else ∃ t, exec (.laneRotation n found) s = .next t ∧ valuesKept s t ∧ t.ports = s.ports ∧
      t.ctrl.errors = s.ctrl.errors ++ new.map (fun l => { kind := 6, die := dravimEnd (n - 16), unit := l, detail := n - 16, time := s.time }) ∧
      (let q : Dravim := Tbl.get {} t.ctrl.dravim (n - 16)
       q.weak = p.weak ++ new ∧ q.shadow = (p.weak ++ new).headD (nextDravim p.shadow)) ∧
      (¬ lost → t.ctrl.freezes = s.ctrl.freezes ∧ t.mem = s.mem ∧ t.dies = s.dies) ∧
      (lost → s.dieStopped (dravimEnd (n - 16)) = false → ∃ f, t.ctrl.freezes = s.ctrl.freezes ++ [f] ∧ f.cause = 3 ∧ f.odie = dravimEnd (n - 16))) ∧
  (∀ s (r : RemoteReq), let bs := (List.range r.len).map (fun i => ({ pa := r.pa + i } : PByte))
    let plain := ∀ i, i < r.len → (regionOf s.ddr (r.pa + i)).plain = true ∧ s.mem.isBad (r.pa + i) = false
    let old := (List.range r.len).map (fun i => plainByte s (r.pa + i))
    let new := leBytes r.len (atomNew r.op r.ty (leNat old) r.x.toNat r.y.toNat).1
    let leads := fun (d n : Nat) => (List.range 16).find? (fun m => (Tbl.get 0 s.io.routes d).getLsbD m) = some n
    let sends := fun (t : State) (f : OutFlit) => ∀ n, Tbl.get ({} : Port) t.ports n =
      { Tbl.get ({} : Port) s.ports n with queued := (Tbl.get ({} : Port) s.ports n).queued ++ if leads f.dev n then [f] else [] }
    let answer : OutFlit := { vc := if r.cls = 0 then 1 else 3, dev := r.src, tenant := r.tenant, cls := r.cls }
    let same := fun (t : State) => { t with mem := s.mem, io := s.io, ports := s.ports } = s ∧ { t.io with replies := s.io.replies } = s.io
    ∃ t, exec (.remoteRequest r) s = .next t ∧
      (∀ d, r.dest = some d → d ≠ s.io.domidx →
        if s.ctrl.power = 2 then t = s
        else { t with ports := s.ports } = s ∧ sends t { vc := if r.cls = 0 then 0 else 2, dev := d, tenant := r.tenant, cls := r.cls }) ∧
      (r.dest = none ∨ r.dest = some s.io.domidx →
        (s.accepts r = false → if r.kind = .write then t = s
          else same t ∧ t.mem = s.mem ∧ sends t answer ∧ t.io.replies = s.io.replies ++ [(r.src, false, [])]) ∧
        (s.accepts r = true → bs.any s.guarded = true → t = s) ∧
        (s.accepts r = true → bs.any s.guarded = false → plain → same t ∧ match r.kind with
          | .read => t.mem = s.mem ∧ sends t answer ∧ t.io.replies = s.io.replies ++ [(r.src, true, old)]
          | .write => t.io = s.io ∧ t.ports = s.ports ∧ memElse (fun a => r.pa ≤ a ∧ a < r.pa + r.len) s t ∧
              (r.data.length = r.len → ∀ i, i < r.len → plainByte t (r.pa + i) = r.data.getD i 0)
          | .atom => sends t answer ∧ t.io.replies = s.io.replies ++ [(r.src, true, old)] ∧
              memElse (fun a => r.pa ≤ a ∧ a < r.pa + r.len) s t ∧ ∀ i, i < r.len → plainByte t (r.pa + i) = new.getD i 0))) ∧
  (∀ s dev, dev < 256 → ∃ t, exec (.pathDown dev) s = .next t ∧ valuesKept s t ∧ dev ∈ t.io.down ∧ (∀ j ∈ s.io.down, j ∈ t.io.down) ∧
    (∀ b, b < 4 → let g : Grid := Tbl.get {} s.io.grids b
      (Tbl.get {} t.io.grids b : Grid).bar.stat = if dev ∈ g.members then max g.bar.stat 2 else g.bar.stat) ∧
    ((∀ d n j, n < 0x1_0000 → let l := ((Tbl.get 0 s.io.ctxs j).extractLsb' 120 40).toNat * 4096
        (s.die d).fq.base + n < l ∨ l + 256 ≤ (s.die d).fq.base + n) →
      ∀ k c, c ∈ (s.core k).copies → c.kind = 3 → dev ∈ s.ctxMembers c.ctx → ∀ x ∈ (t.core k).copies, x.id ≠ c.id))

/-- R420, R428 to R430, R332: which requests the mailbox turns away, and with which status.
The model's own choices in it: log 81, 118. -/
def Obligations.MailboxRefusals : Prop :=
  ∀ (s : State) i fn tag req m, mailAsk i = some (fn, tag, req, m) → fn < 18 →
    let r := req.take 4096
    (s.mailOpen fn = false ∨ s.pending fn = true → exec i s = .next s) ∧
    (s.mailOpen fn = true → s.pending fn = false → s.ctrl.boot ≠ 7 → m.early ≠ 1 → ¬ (m.early = 2 ∧ s.ctrl.boot < 7) →
      ∃ t, exec i s = .next t ∧ mailOnly fn id s t ∧ replied fn m.code tag 7 [] s t) ∧
    (s.mailOpen fn = true → s.pending fn = false → s.ctrl.boot = 7 ∨ m.early = 1 ∨ (m.early = 2 ∧ s.ctrl.boot < 7) →
      ((m.operator = true ∧ fn ≠ 0 ∧ fn ≠ 17) ∨ r.length < m.need ∨ ∃ j ∈ m.zeros, r.getD j 0 ≠ 0) →
      ∃ t, exec i s = .next t ∧ mailOnly fn id s t ∧ replied fn m.code tag 2 [] s t)

/-- R332, R333, R370, R423 to R427, R430: what each request of the mailbox does once it is served; LIMITS by its operation byte, STATE by its
target byte.
The model's own choices in it: log 78, 81, 88, 118. -/
def Obligations.MailboxCommands : Prop :=
  ∀ (s : State) fn tag req (d : List Byte), let r := req.take 4096
    let num := fun i n => leNat ((r.drop i).take n)
    let ready := fun i => mailReady i s
    let done := fun (i : Instr) (hide : Ctrl → Ctrl) (code status : Nat) (bs : List Byte) (also : State → Prop) =>
      ∃ t, exec i s = .next t ∧ mailOnly fn hide s t ∧ replied fn code tag status bs s t ∧ also t
    let same := fun (_ : State) => True
    let later := fun (i : Instr) (code : Nat) => ∃ t, exec i s = .next t ∧ mailOnly fn (fun c => { c with waiting := [] }) s t ∧
      t.ctrl.waiting = s.ctrl.waiting ++ [{ fn := fn, code := code, tag := tag, req := r }] ∧ t.pending fn = true ∧ t.io = s.io
    (ready (.mailboxId fn tag req) → done (.mailboxId fn tag req) id 0x01 0 (leBytes 8 idReg ++ (List.range 16).map Config.serialByte ++
      (if s.ctrl.boot < 8 then s.measurement0 else List.replicate 48 0) ++
      (if s.ctrl.boot = 6 ∨ s.ctrl.boot = 7 then s.measurement1 else List.replicate 48 0)) same) ∧
    (ready (.fwload fn tag req d) → let r := (req ++ d).take 4096
      let off := leNat (r.take 4)
      let total := leNat ((r.drop 4).take 4)
      let data := r.drop 8
      let hide := fun (c : Ctrl) => { c with upload := [], images := [], nextSlot := 0 }
      let up := fun (t : State) => ∀ a, Tbl.get 0 t.ctrl.upload a =
        if off ≤ a ∧ a < off + data.length then data.getD (a - off) 0 else Tbl.get 0 s.ctrl.upload a
      if total < off + data.length then done (.fwload fn tag req d) id 0x02 2 [] same
      else if off + data.length < total then done (.fwload fn tag req d) hide 0x02 0 [] (fun t => up t ∧ t.ctrl.nextSlot = s.ctrl.nextSlot ∧
        t.ctrl.images = s.ctrl.images)
      else
        let img := (List.range total).map (fun a =>
          if off ≤ a ∧ a < off + data.length then data.getD (a - off) 0 else Tbl.get 0 s.ctrl.upload a)
        done (.fwload fn tag req d) hide 0x02 (if imageOk img s.ctrl.svn then 0 else 2) [] (fun t => up t ∧
          (∀ k, Tbl.get [] t.ctrl.images k = if k = 1 - s.ctrl.active then img else Tbl.get [] s.ctrl.images k) ∧
          t.ctrl.nextSlot = if imageOk img s.ctrl.svn then 1 - s.ctrl.active else s.ctrl.active)) ∧
    (ready (.cert fn tag req) → let n := s.chain.length
      if n ≤ num 0 4 then done (.cert fn tag req) id 0x03 5 [] same
      else done (.cert fn tag req) id 0x03 0 (leBytes 8 (n % 2 ^ 32) ++ (s.chain.drop (num 0 4)).take 4088) same) ∧
    (ready (.step fn tag req) → if num 0 1 < 4 ∧ num 1 1 < 4 then later (.step fn tag req) 0x10 else done (.step fn tag req) id 0x10 2 [] same) ∧
    (∀ i ∈ [Instr.limitsRead fn tag req, .limitsSet fn tag req], ready i →
      if num 0 1 = 0 ∨ (num 0 1 = 1 ∧ 80 ≤ num 4 4 ∧ num 4 4 ≤ 105 ∧ 900 ≤ num 8 4 ∧ num 8 4 ≤ 2100) then later i 0x11 else done i id 0x11 2 [] same) ∧
    (∀ i ∈ [Instr.stateActive fn tag req, .stateQuiesce fn tag req, .stateStandby fn tag req, .stateWarmReset fn tag req], ready i →
      (num 0 1 < 2 → if s.ctrl.power ≠ 2 then done i (fun c => { c with power := 0 }) 0x12 0 [BitVec.ofNat 8 (num 0 1)] (fun t => t.ctrl.power = num 0 1)
        else done i id 0x12 2 [] same) ∧
      (num 0 1 = 2 → if s.ctrl.power = 2 then done i id 0x12 0 [2] same
        else if s.ctrl.power = 1 ∧ s.quiet = true then ∃ t, exec i s = .next t ∧ replied fn 0x12 tag 0 [2] s t ∧
          t.ctrl.power = 2 ∧ t.dies = [] ∧ t.tasks = [] ∧ t.ports = [] ∧ t.time = s.time ∧ (∀ k i, (t.team k i).st = 0) ∧
          (∀ a, t.mem.byte a = if a < 0x100_0000_0000 ∨ (0xF00_0000_0000 ≤ a ∧ a < 0xF01_8000_0000) then 0 else s.mem.byte a)
        else done i id 0x12 2 [] same) ∧
      (num 0 1 = 3 → ∃ u t, mailOnly fn id s u ∧ replied fn 0x12 tag 0 [BitVec.ofNat 8 s.ctrl.power] s u ∧
        exec i s = .next t ∧ exec .warmReset u = .next t) ∧
      (3 < num 0 1 → done i id 0x12 2 [] same)) ∧
    (ready (.svnset fn tag req) → if num 0 4 < s.ctrl.svn then done (.svnset fn tag req) id 0x13 2 [] same
      else done (.svnset fn tag req) (fun c => { c with svn := 0 }) 0x13 0 (leBytes 4 (num 0 4)) (fun t => t.ctrl.svn = num 0 4)) ∧
    (ready (.mailboxTime fn tag req) → let p := s.ctrl.ptp
      done (.mailboxTime fn tag req) id 0x20 0 (leBytes 8 p.lock ++ (if p.everLocked then leInt 8 p.offset else leBytes 8 (2 ^ 63)) ++
        leInt 4 (if p.lock = 0 then 0 else p.rate) ++ leBytes 4 0 ++ leBytes 8 s.time) same) ∧
    (ready (.errors fn tag req) → done (.errors fn tag req) id 0x21 0
      (leBytes 8 s.ctrl.errors.length ++ ((s.ctrl.errors.drop (num 0 4)).take 255).flatMap ErrEntry.bytes) same) ∧
    (ready (.clear fn tag req) → (s.cores.map Prod.fst).Nodup → if 4 ≤ num 0 1 then done (.clear fn tag req) id 0x22 2 [] same
      else ∃ t, exec (.clear fn tag req) s = .next t ∧ replied fn 0x22 tag 0 [] s t ∧ t.mem = s.mem ∧ t.dies = s.dies ∧
        (∀ k, { t.core k with ctl := { (t.core k).ctl with retired := false, spares := [] } } =
            { s.core k with ctl := { (s.core k).ctl with retired := false, spares := [] } } ∧
          (t.core k).ctl.retired = ((s.core k).ctl.retired && !(num 0 1).testBit 0) ∧
          (t.core k).ctl.spares = if (num 0 1).testBit 1 then [] else (s.core k).ctl.spares) ∧
        ∀ e, e ∈ t.ctrl.errors ↔ e ∈ s.ctrl.errors ∧ ¬ ((num 0 1).testBit 0 = true ∧ e.kind = 0) ∧ ¬ ((num 0 1).testBit 1 = true ∧ e.kind = 1)) ∧
    (ready (.caplist fn tag req) → done (.caplist fn tag req) id 0x40 0 (s.capList (s.reader fn)) same) ∧
    (ready (.capget fn tag req) → let i := num 0 1
      let st := s.store i
      let reader := s.reader fn
      if 2 ≤ i ∨ st.st ≠ 1 then done (.capget fn tag req) id 0x41 (if s.assembling = true ∧ i < 2 then 4 else 1) [] same
      else if reader ≠ 0xFF ∧ st.present reader = false then done (.capget fn tag req) id 0x41 1 [] same
      else
        let bs := match st.views.find? (fun v => v.1 == reader) with
          | some v => some v.2
          | none => if 2 ^ 20 ≤ s.ctrl.lms then none else some (st.capsuleBody reader ++ s.signatures (st.capsuleBody reader))
        match bs with
        | none => done (.capget fn tag req) id 0x41 6 [] same
        | some bs => if bs.length ≤ num 4 4 then done (.capget fn tag req) id 0x41 5 [] same
          else done (.capget fn tag req) (fun c => { c with lms := 0, stores := [] }) 0x41 0 (leBytes 8 bs.length ++ (bs.drop (num 4 4)).take 4088)
            (fun t => t.ctrl.lms = s.ctrl.lms + (if (st.views.find? (fun v => v.1 == reader)).isSome then 0 else 1) ∧
              ∃ v ∈ (t.store i).views, v = (reader, bs))) ∧
    (ready (.capack fn tag req) → let i := num 0 1
      let st := s.store i
      let reader := s.reader fn
      let force := num 1 1
      let hide := fun (c : Ctrl) => { c with stores := [] }
      if 1 < force ∨ (force = 1 ∧ reader ≠ 0xFF) then done (.capack fn tag req) id 0x42 2 [] same
      else if 2 ≤ i ∨ st.st ≠ 1 then done (.capack fn tag req) id 0x42 (if s.assembling = true ∧ i < 2 then 4 else 1) [] same
      else if reader ≠ 0xFF then
        if st.present reader = false then done (.capack fn tag req) id 0x42 1 [] same
        else done (.capack fn tag req) hide 0x42 0 [] (fun t => reader ∈ (t.store i).acked ∧ { t.store i with acked := st.acked } = st)
      else if force = 1 ∨ (List.range 255).all (fun u => !st.present u || st.acked.contains u) = true then
        done (.capack fn tag req) (fun c => { c with stores := [], mirror := [] }) 0x42 0 [] (fun t =>
          t.store i = {} ∧ (Tbl.get {} t.ctrl.mirror i : Store) = {} ∧ ∀ j, j ≠ i → t.store j = s.store j)
      else done (.capack fn tag req) id 0x42 3 [] same) ∧
    (ready (.capfreeze fn tag req) → if s.assembling then done (.capfreeze fn tag req) id 0x43 4 [] same
      else ∃ t, exec (.capfreeze fn tag req) s = .next t ∧ Tbl.get 0 t.ctrl.mbox fn = BitVec.ofNat 64 (2 ^ 62 + tag % 2 ^ 16 * 2 ^ 32 + 0x43) ∧
        valuesKept s t ∧ if s.dieStopped 4 then t.ctrl.freezes = s.ctrl.freezes
          else t.dieStopped 4 = true ∧ ∃ f, t.ctrl.freezes = s.ctrl.freezes ++ [f] ∧ f.cause = 6 ∧ f.time = s.time)

/-- R408, R420, R425, R426: SPDM requests are answered; a sensor period of 100 µs takes waiting requests in, measures and decides the steps;
above the shutdown temperature the module freezes, and powers off once its capsule is kept.
The model's own choices in it: log 82, 89, 138. -/
def Obligations.SensorsAndSpdm : Prop :=
  (∀ s req, let b := fun i n => leNat ((req.drop i).take n)
    let part := (s.chain.drop (b 4 2)).take (b 6 2)
    let slot0 := b 2 1 % 16 = 0
    let error := (0x7F, [(1 : Byte), 0], ([] : List Byte))
    ∀ x ∈ [(Instr.spdmGetVersion req, 0x04, [(0x12 : Byte)], ([] : List Byte)), (.spdmGetCapabilities req, 0x61, [], []),
      (.spdmNegotiateAlgorithms req, 0x63, [0x80, 0, 0, 0, 2, 0, 0, 0], []), (.spdmGetDigests req, 0x01, sha384 s.chain, []),
      (.spdmGetCertificate req, if slot0 then (0x02, leBytes 2 part.length ++ leBytes 2 (s.chain.length - b 4 2 - part.length) ++ part, []) else error),
      (.spdmChallenge req, if slot0 then (0x03, sha384 s.chain, s.ecdsa req) else error),
      (.spdmGetMeasurements req, 0x60, s.measurement0 ++ s.measurement1, if b 2 1 % 2 = 1 then s.ecdsa req else [])],
    (1 ≤ s.ctrl.boot → s.ctrl.boot < 8 → ∃ t more, exec x.1 s = .next t ∧ ioOnly (fun y => { y with spdm := [] }) s t ∧
      t.io.spdm = s.io.spdm ++ [(x.2.1, x.2.2.1 ++ more ++ x.2.2.2)]) ∧
    (s.ctrl.boot = 9 → s.ctrl.cfg = false → ∃ t, exec x.1 s = .next t ∧ answered 4 [] s t) ∧
    (s.ctrl.boot = 0 ∨ s.ctrl.boot = 8 → exec x.1 s = .next s)) ∧
  (∀ s temps p, (s.ctrl.boot ≠ 6 ∧ s.ctrl.boot ≠ 7) ∨ s.time < s.ctrl.sensed + 100000 → exec (.sensorPeriod temps p) s = .next s) ∧
  (∀ s temps p, s.ctrl.boot = 6 ∨ s.ctrl.boot = 7 → s.ctrl.sensed + 100000 ≤ s.time → s.ctrl.power ≠ 2 → s.ctrl.waiting = [] →
    (∀ x ∈ temps, x ≤ 1100) → let n := (s.time - s.ctrl.sensed) / 100000
    let ws := (List.replicate (min n 10) p ++ s.ctrl.powers).take 10
    let hot := s.ctrl.limit * ws.length < ws.sum
    ∃ t, exec (.sensorPeriod temps p) s = .next t ∧ { t with dies := s.dies, ctrl := s.ctrl } = s ∧
      { t.ctrl with powerFor := 0, powers := [], sensed := 0 } = { s.ctrl with powerFor := 0, powers := [], sensed := 0 } ∧
      t.ctrl.sensed = s.ctrl.sensed + 100000 * n ∧ t.ctrl.powers = ws ∧ t.ctrl.powerFor = (if hot then (s.ctrl.powerFor + n) % 10 else 0) ∧
      ∀ d, d < 4 → let c := (s.die d).clk
        let e := (t.die d).clk
        let x := temps.getD d 0
        { t.die d with clk := c } = s.die d ∧ e.cyc = c.cyc ∧ e.cycn = c.cycn ∧ e.step = c.step ∧ e.relock = c.relock ∧ e.req = c.req ∧ e.temp = x ∧
        e.thermal = (if 10 * s.ctrl.throttle < x then c.thermal - (c.hotFor + n) / 10
          else if x + 50 ≤ 10 * s.ctrl.throttle then min 3 (c.thermal + (c.coolFor + n) / 100) else c.thermal) ∧
        (hot → e.power = if d = hottest temps then c.power - (s.ctrl.powerFor + n) / 10 else c.power) ∧
        (¬ hot → c.power ≤ 3 → c.power ≤ e.power ∧ e.power ≤ min 3 (c.power + 1)) ∧
        let st := min e.req (min e.thermal e.power)
        if st = (if c.relock.isSome then c.goal.1 else c.step) then e.next = none else ∃ why, e.next = some (st, why)) ∧
  (∀ s temps p r, s.ctrl.boot = 6 ∨ s.ctrl.boot = 7 → s.ctrl.sensed + 100000 ≤ s.time → s.ctrl.waiting = [r] → (∀ x ∈ temps, x ≤ 1100) →
    ∃ t, exec (.sensorPeriod temps p) s = .next t ∧ t.ctrl.waiting = [] ∧ t.mem = s.mem ∧ t.cores = s.cores ∧
      (r.code = 0x10 → (t.die (leNat (r.req.take 1))).clk.req = leNat ((r.req.drop 1).take 1) ∧ replied r.fn 0x10 r.tag 0 [] s t) ∧
      (r.code = 0x11 → (leNat (r.req.take 1) = 1 → t.ctrl.throttle = leNat ((r.req.drop 4).take 4) ∧ t.ctrl.limit = leNat ((r.req.drop 8).take 4)) ∧
        replied r.fn 0x11 r.tag 0 (leBytes 4 t.ctrl.throttle ++ leBytes 4 110 ++ leBytes 4 t.ctrl.limit) s t)) ∧
  (∀ s temps p, s.ctrl.boot = 6 ∨ s.ctrl.boot = 7 → s.ctrl.sensed + 100000 ≤ s.time → (∃ x ∈ temps, 1100 < x) →
    ∃ t, exec (.sensorPeriod temps p) s = .next t ∧
      (s.ctrl.assembled = false → t.ctrl.trip = true ∧
        (s.dieStopped 4 = false → ∃ f, t.ctrl.freezes = s.ctrl.freezes ++ [f] ∧ f.cause = 5)) ∧
      (s.ctrl.assembled = true → t.ctrl.boot = 0 ∧ t.ctrl.stores = s.ctrl.stores ∧ t.dies = [] ∧ t.mem = {}))

/-- R376, R386, R390, R430: errors are counted and do what R386 says; windows and old errors pass; lasting faults are spared or retire a
core, and are listed.
The model's own choices in it: log 70, 71, 72, 136. -/
def Obligations.ErrorEvents : Prop :=
  (∀ s k n u v unc, k < 192 → n < 15 → (s.core k).ctl.errs.Pairwise (fun a b => a.1 ≠ b.1) → let e := s.errNow k n
    let soft := unc = false ∨ n ∈ [4, 5, 6, 13]
    ∃ t, exec (.errorDetection (.core k n u v) unc) s = .next t ∧ (∀ j, j ≠ n → t.errOf k j = s.errNow k j) ∧
      (t.errOf k n).row = (if n = 3 then u / 512 else u) ∧ (t.errOf k n).rows = e.rows ∧
      (soft → (t.errOf k n).ce = min 65535 (e.ce + 1) ∧ (t.errOf k n).ue = e.ue ∧ (t.errOf k n).times = e.times ∧
        (t.errOf k n).last = (e.last || decide (16 ≤ min 65535 (e.ce + 1)))) ∧
      (¬ soft → (t.errOf k n).ue = min 255 (e.ue + 1) ∧ (t.errOf k n).ce = e.ce ∧ (t.errOf k n).times = e.times ++ [s.time] ∧
        (t.errOf k n).last = (e.last || decide (2 ≤ min 255 (e.ue + 1)))) ∧
      (unc = false → { t with cores := s.cores } = s ∧ valuesKept s t) ∧
      (unc = true → n ∈ [9, 10, 11, 14] → (s.core k).rcd.frz = false → ∃ f, t.ctrl.freezes = s.ctrl.freezes ++ [f] ∧ f.cause = 1 ∧ f.origin = k) ∧
      (unc = true → n = 0 → ∀ i b r, (s.core k).vregOwner u = some (i, b, r) → let c : VCell := Tbl.get {} (s.team k i).regs.v (1024 * r + b + v % 32)
        (Tbl.get {} (t.team k i).regs.v (1024 * r + b + v % 32) : VCell) = { val := c.val, pz := true }) ∧
      (unc = true → n = 2 → ((s.team k u).st = 1 ∨ (s.team k u).st = 2) → (t.team k u).st = 4) ∧
      (unc = true → n = 3 → t.mem.isBad (winBase k + u % 0x30_0000) = true ∧ ∀ a, t.mem.byte a = s.mem.byte a) ∧
      (unc = true → n = 7 → Tbl.get false ((t.core k).tile (u % 16)).pz (v % 4096) = true)) ∧
  (∀ s pa unc, (regionOf s.ddr pa = .hbm ∨ regionOf s.ddr pa = .ddr) → let u := memUnit s.ddr pa
    let w := sliceUnit pa
    ∀ x ∈ [(ErrorSite.mem pa, u, if u < 8 then (2, u / 2, u) else (3, 4 + (u - 8) / 4, u - 8)), (.slice pa, w, 4, (w - 16) / 16, (w - 16) % 16)],
    let old : ErrCnt := Tbl.get {} s.ctrl.memErrs x.2.1
    let e := agedErr s.time (decide (s.ctrl.memWin < (s.time - s.ctrl.released) / 10000000000)) old
    let new := if unc then e.addUe s.time else e.addCe
    ∃ t, exec (.errorDetection x.1 unc) s = .next t ∧ t.cores = s.cores ∧ t.dies = s.dies ∧ t.mem.bytes = s.mem.bytes ∧
      (∀ a, t.mem.isBad a = if unc = true ∧ granuleOf a = granuleOf pa then true else s.mem.isBad a) ∧
      (Tbl.get {} t.ctrl.memErrs x.2.1 : ErrCnt) = new ∧
      t.ctrl.errors = s.ctrl.errors ++ if old.last = false ∧ new.last = true
        then [{ kind := x.2.2.1, die := x.2.2.2.1, unit := x.2.2.2.2, detail := 0, time := s.time }] else []) ∧
  (∀ (s : State) k, k < 192 → let c := (s.core k).ctl
    let w := max 1 (c.errwin * 1000000)
    c.errs.Pairwise (fun a b => a.1 ≠ b.1) → ∃ t, exec (.errorWindowExpiry k) s = .next t ∧
      coreOnly k (fun c => { c with ctl := { c.ctl with errs := [], winStart := 0 } }) s t ∧ (∀ n, t.errOf k n = s.errNow k n) ∧
      (t.core k).ctl.winStart = c.winStart + if c.winStart + w ≤ s.time then (s.time - c.winStart) / w * w else 0) ∧
  (∀ (s : State) k n, k < 192 → n < 15 → ∃ t, exec (.ueExpiry k n) s = .next t ∧
    coreOnly k (fun c => { c with ctl := { c.ctl with errs := [] } }) s t ∧
    t.errOf k n = agedErr s.time false (s.errOf k n) ∧ ∀ j, j ≠ n → t.errOf k j = s.errOf k j) ∧
  (∀ (s : State) k n, k < 192 → n < 15 → let e := s.errOf k n
    let c := (s.core k).ctl
    let spare := n ∈ [0, 3, 7, 8] ∧ Tbl.get 0 c.spares n < 2
    if e.last = false then exec (.lastingFaultAction k n) s = .next s
    else ∃ t, exec (.lastingFaultAction k n) s = .next t ∧ valuesKept s t ∧ (∀ j, j ≠ n → t.errOf k j = s.errOf k j) ∧
      (spare → t.errOf k n = { e with last := false, rows := e.rows ++ [e.row] } ∧
        Tbl.get 0 (t.core k).ctl.spares n = Tbl.get 0 c.spares n + 1 ∧ (t.core k).ctl.retired = c.retired) ∧
      (¬ spare → t.errOf k n = { e with last := false } ∧ (t.core k).ctl.spares = c.spares ∧ (t.core k).ctl.retired = true) ∧
      t.ctrl.errors = s.ctrl.errors ++ [if spare then { kind := 1, die := dieOfCore k, unit := n, detail := k * 65536 + e.row, time := s.time }
        else { kind := 0, die := dieOfCore k, unit := k, detail := n, time := s.time }]) ∧
  (∀ (s : State) k n, k < 192 → n < 15 → let e := s.errOf k n
    match e.rows.find? (fun r => !s.rowHeld k n r) with
    | none => exec (.rowSpareEffect k n) s = .next s
    | some row => ∃ t, exec (.rowSpareEffect k n) s = .next t ∧ t.errOf k n = { e with rows := e.rows.erase row } ∧
        (∀ j, j ≠ n → t.errOf k j = s.errOf k j) ∧
        (∀ a, t.mem.byte a = if n = 3 ∧ winBase k + 512 * row ≤ a ∧ a < winBase k + 512 * row + 512 then 0 else s.mem.byte a) ∧
        (∀ a, (t.core k).tile a = if n = 7 ∧ a = row then {} else (s.core k).tile a) ∧
        (∀ a, (t.core k).slot a = if n = 8 ∧ a = row then {} else (s.core k).slot a) ∧ ∀ i, t.team k i = s.team k i)

/-- R321 to R325: fatal conditions are broadcast, dies that hear of them stop with their markers, and the controller assembles a store
with its mirror.
The model's own choices in it: log 76, 77, 79, 123. -/
def Obligations.FreezeEvents : Prop :=
  (∀ (s : State) odie core cause strct, (cause = 0 ∨ 8 ≤ cause) → exec (.fatalCondition odie core cause strct) s = .fault (.noSuchUnit "cause" cause)) ∧
  (∀ (s : State) odie core cause strct, odie < 6 → 1 ≤ cause → cause < 8 →
    let gone := if core < 192 then (s.core core).rcd.frz else s.dieStopped odie
    if gone then exec (.fatalCondition odie core cause strct) s = .next s
    else ∃ t f, exec (.fatalCondition odie core cause strct) s = .next t ∧ valuesKept s t ∧ t.ctrl.freezes = s.ctrl.freezes ++ [f] ∧ f.time = s.time ∧
      f.cause = cause ∧ f.odie = odie ∧ f.origin = (if core < 192 then core else 0xFF) ∧
      t.ctrl.serial = s.ctrl.serial + (if s.ctrl.freezes = [] then 1 else 0) ∧
      (cause = 2 → strct = 2 → f.handle = 0) ∧
      (core < 192 → (t.core core).rcd.frz = true ∧ (t.core core).ctl.stopped = true) ∧ (192 ≤ core → t.dieStopped odie = true)) ∧
  (∀ s d miss, d < 6 → (s.dieStopped d = true ∨ s.ctrl.freezes = []) → exec (.freezeReceipt d miss) s = .next s) ∧
  (∀ s d miss f fs, 4 ≤ d → d < 6 → s.dieStopped d = false → s.ctrl.freezes = f :: fs →
    ∃ t, exec (.freezeReceipt d miss) s = .next t ∧ { t with ctrl := s.ctrl } = s ∧ { t.ctrl with ioFrozen := s.ctrl.ioFrozen } = s.ctrl ∧
      t.dieStopped d = true) ∧
  (∀ s d miss f, d < 4 → (s.die d).frozen = false → s.ctrl.freezes = [f] →
    ∃ t, exec (.freezeReceipt d miss) s = .next t ∧ { t with cores := s.cores, dies := s.dies } = s ∧ (∀ e, e ≠ d → t.die e = s.die e) ∧
      t.die d = { s.die d with frozen := true } ∧ (∀ k, dieOfCore k ≠ d → t.core k = s.core k) ∧
      ∀ k, dieOfCore k = d → (t.core k).rcd.frz = true ∧ { t.core k with rcd := {}, ctl := {} } = { s.core k with rcd := {}, ctl := {} } ∧
        ((s.core k).rcd.frz = false → (t.core k).ctl.stopped = true ∧ (t.core k).rcd.buf = [] ∧ (t.core k).rcd.held = [] ∧
          if k ∈ miss then (t.core k).rcd.miss = true
          else (s.core k).rcd.wptr < 4096 →
            Tbl.get 0 (t.core k).rcd.ring (((t.core k).rcd.wptr + 4095) % 4096) = evWord 0x3F 0 0xFF s.time f.payload)) ∧
  (∀ s salt, (s.ctrl.freezes = [] ∨ s.ctrl.assembled = true ∨
      ∃ f fs, s.ctrl.freezes = f :: fs ∧ s.time < f.time + 2000 ∧ ∃ k, k < 192 ∧ (s.core k).rcd.frz = false) → exec (.capsuleAssembly salt) s = .next s) ∧
  (∀ s salt f fs, s.ctrl.freezes = f :: fs → s.ctrl.assembled = false → (f.time + 2000 ≤ s.time ∨ ∀ k, k < 192 → (s.core k).rcd.frz = true) →
    s.ctrl.resetHeld = false → s.ctrl.trip = false → (∀ g ∈ s.ctrl.freezes, g.cause ≠ 5) → salt.length = 48 →
    ∃ t, exec (.capsuleAssembly salt) s = .next t ∧ { t with ctrl := s.ctrl, io := s.io } = s ∧ t.ctrl.assembled = true ∧
      let free := fun i => decide ((s.store i).st ≠ 1)
      let kept := fun i => (t.store i).st = 1 ∧ (t.store i).serial = s.ctrl.serial ∧ (t.store i).salt = salt ∧ (t.store i).snap = s.snapshot ∧
        (∀ k, k < 192 → (Tbl.get {} (t.store i).rings k : Recorder) = (s.core k).rcd) ∧ t.io.msix = s.io.msix ++ [(0, 5)] ∧
        (s.ddr ≠ 0 → (Tbl.get {} t.ctrl.mirror i : Store) = t.store i)
      if free 0 then kept 0 ∧ t.store 1 = s.store 1
      else if free 1 then kept 1 ∧ t.store 0 = s.store 0
      else (∃ g, t.ctrl.dropped = some (s.ctrl.serial, g)) ∧ t.ctrl.stores = s.ctrl.stores ∧ t.ctrl.mirror = s.ctrl.mirror ∧ t.io = s.io) ∧
  (∀ s salt f fs, s.ctrl.freezes = f :: fs → s.ctrl.assembled = false → (f.time + 2000 ≤ s.time ∨ ∀ k, k < 192 → (s.core k).rcd.frz = true) →
    let off := s.ctrl.trip = true ∨ ∃ g ∈ s.ctrl.freezes, g.cause = 5
    ∃ t, exec (.capsuleAssembly salt) s = .next t ∧ ((s.store 0).st ≠ 1 → (t.store 0).st = 1 ∧ (t.store 0).serial = s.ctrl.serial) ∧
      (off → t.ctrl.boot = 0) ∧ (¬ off → t.ctrl.boot = if s.ctrl.resetHeld then 1 else s.ctrl.boot))

/-- R324, R330, R331, R390, R420, R422: resets and their steps, their delay by an assembly, loss of power, the image that boots, and what
becomes of the capsule stores.
The model's own choices in it: log 8, 80, 88, 89, 137. -/
def Obligations.ResetEvents : Prop :=
  (∀ (s : State), if s.ctrl.boot = 0 ∨ 8 ≤ s.ctrl.boot then exec .warmReset s = .next s
    else if s.assembling then exec .warmReset s = .next { s with ctrl := { s.ctrl with resetHeld := true } }
    else (s.cores.map Prod.fst).Nodup → ∃ t, exec .warmReset s = .next t ∧ coldMachine s { t with mem := {} } ∧ t.mem = s.mem ∧ t.ctrl.boot = 1 ∧
      t.ctrl.power = 0 ∧ t.time = s.time ∧ t.ctrl.mbox = s.ctrl.mbox ∧ t.ctrl.freezes = [] ∧ t.ctrl.active = s.ctrl.active ∧ t.ctrl.svn = s.ctrl.svn ∧
      t.ctrl.errors = s.ctrl.errors ∧ t.ctrl.stores = s.ctrl.stores ∧ t.ctrl.mirror = s.ctrl.mirror) ∧
  (∀ s standby, (s.cores.map Prod.fst).Nodup → ∃ t, exec (.powerLoss standby) s = .next t ∧ coldMachine s t ∧ t.ctrl.boot = 0 ∧
    t.ctrl.images = s.ctrl.images ∧ t.ctrl.nextSlot = s.ctrl.nextSlot ∧ t.ctrl.svn = s.ctrl.svn ∧ t.ctrl.errors = s.ctrl.errors ∧
    t.ctrl.stores = (if standby then [] else s.ctrl.stores) ∧ t.ctrl.mirror = [] ∧ (standby = false → t.time = s.time) ∧ t.ctrl.mbox = []) ∧
  (∀ s standby, (s.cores.map Prod.fst).Nodup → ∃ t, exec (.powerOnReset standby) s = .next t ∧ coldMachine s t ∧ t.ctrl.boot = 9 ∧
    t.ctrl.images = s.ctrl.images ∧ t.ctrl.nextSlot = s.ctrl.nextSlot ∧ t.ctrl.svn = s.ctrl.svn ∧ t.ctrl.errors = s.ctrl.errors ∧
    t.ctrl.stores = (if standby then [] else s.ctrl.stores) ∧ t.ctrl.mirror = [] ∧ (standby = false → t.time = s.time) ∧ t.ctrl.ptp = {} ∧
    t.ctrl.mbox = [] ∧ t.ctrl.throttle = 95 ∧ t.ctrl.limit = 2100) ∧
  (∀ s : State, s.ctrl.boot = 9 → let good := fun k => (if Tbl.get [] s.ctrl.images k = [] then Config.factoryPasses k s.ctrl.svn else imageOk (Tbl.get [] s.ctrl.images k) s.ctrl.svn) = true
    let a := s.ctrl.nextSlot
    { s.bootStep with ctrl := s.ctrl } = s ∧ s.bootStep.ctrl.stores = s.ctrl.stores ∧
      (good a → s.bootStep.ctrl.boot = 1 ∧ s.bootStep.ctrl.active = a) ∧
      (¬ good a → good (1 - a) → s.bootStep.ctrl.boot = 1 ∧ s.bootStep.ctrl.active = 1 - a) ∧
      (¬ good a → ¬ good (1 - a) → s.bootStep.ctrl.boot = 8 ∧ s.bootStep.ctrl.active = s.ctrl.active)) ∧
  (∀ s : State, s.ctrl.boot = 2 → s.ctrl.stores.Pairwise (fun a b => a.1 ≠ b.1) →
    { s.bootStep with ctrl := s.ctrl } = s ∧ s.bootStep.ctrl.boot = 3 ∧ s.bootStep.ctrl.mirror = s.ctrl.mirror ∧
    ∀ i, let x := s.store i
      let y : Store := Tbl.get {} s.ctrl.mirror i
      s.bootStep.store i = if x.st = 3 then x else if x.st ≠ 1 then { x with st := 0 } else if Config.slotGood s.seq i then x
        else if s.ddr ≠ 0 ∧ y.st = 1 ∧ Config.mirrorGood s.seq i then { y with mirrored := true, views := [] }
        else { st := 3, serial := x.serial, time := x.time, cause := x.cause }) ∧
  (∀ s : State, s.ctrl.boot = 3 → s.bootStep.mem = {} ∧ s.bootStep.ctrl.boot = 4 ∧ s.bootStep.ctrl.stores = s.ctrl.stores ∧
    ∀ i, s.ctrl.stores.Pairwise (fun a b => a.1 ≠ b.1) →
      (Tbl.get {} s.bootStep.ctrl.mirror i : Store) = if s.ddr ≠ 0 ∧ (s.store i).st = 1 then s.store i else {}) ∧
  (∀ s : State, s.ctrl.boot = 5 → s.bootStep.ctrl.boot = 6 ∧
    ∀ k, k < 192 → s.time ≠ 0 → (s.bootStep.core k).rcd = { ring := [(0, evWord 0x12 0 0xFF s.time s.time)] } ∧
      (s.bootStep.core k).ctl.winStart = s.time) ∧
  (∀ s : State, s.ctrl.boot = 6 → s.bootStep = { s with ctrl := { s.ctrl with boot := 7 } })

/-- R30, R86, R103, R241: a selected agent whose word is fetched and ready runs exec of the decoded word in the state after the books of its
issue; a word that is no instruction takes the illegal-instruction fault there; the fetched word is the eight bytes at the PC's place; an
event runs exec and the device settles.
The model's own choices in it: log 2, 12. -/
def Obligations.StepRunsDecoded : Prop :=
  (∀ (s : State) a rest w, s.selected = a :: rest → let u : State := { s with cur := a, selected := rest }
    let j := u.joined
    u.agentReady = true → j.agentReady = true → j.pastJoins → j.fetchWord = .ok w → ((j.isGath = true ∧ j.wordRoom w = true) ∨ j.wordReady w = true) → j.noStopHere w →
    (∀ i, decode w = .ok i → step s = match exec i (j.prologue w) with
      | .next t => .next (j.closeTurn t w).endStep
      | .fault f => .fault f
      | .refused r => .refused r) ∧
    (∀ e, decode w = .error e → step s = .next (j.closeTurn ((j.prologue w).issueIllegal w illegal) w).endStep)) ∧
  (∀ (s : State) b e, s.fetchPlace s.ck s.tm.id.tenant s.ipc = .ok (b, e) → b.dev = none → s.iLine s.ck (pageTag s.tm.id.tenant s.ipc.toNat) (b.pa / 128) = none →
    (∀ i, i < 8 → ram s (b.pa + i) ∧ s.mem.isBad (b.pa + i) = false) →
    s.fetchWord = .ok (wordOfBytes (s.mem.read b.pa 8))) ∧
  (∀ (s : State) i rest, s.selected = [] → s.agenda = .occur i :: rest → isEvent i = true →
    step s = match exec i { s with agenda := rest } with
      | .next t => .next t.endStep
      | .fault f => .fault f
      | .refused r => .refused r) ∧
  ∀ (s : State) rest, s.selected = [] → s.agenda = .elapse :: rest → step s = .next (({ s with agenda := rest } : State).elapseNs).endStep

/-- R7, R8, R10, R103: every instruction and every event of a unit that exists goes on, an event of any other unit stops with a fault that
names it; so a step goes on whatever word an agent meets, whatever event of an existing unit comes next, and by itself.
The model's own choices in it: log 2. -/
def Obligations.StepsGoOn : Prop :=
  (∀ i s, isEvent i = false ∨ i.wf = true → ∃ t, exec i s = .next t) ∧
  (∀ i s, isEvent i = true → i.wf = false → ∃ name n, exec i s = .fault (.noSuchUnit name n)) ∧
  (∀ s : State, s.selected ≠ [] → s.goesOn) ∧
  (∀ (s : State) t rest, s.selected = [] → s.agenda = t :: rest → (t = .elapse ∨ ∃ i, t = .occur i ∧ isEvent i = true ∧ i.wf = true) → s.goesOn) ∧
  (∀ (s : State) i rest, s.selected = [] → s.agenda = .occur i :: rest → isEvent i = false → step s = .fault .notAnEvent) ∧
  ∀ s : State, s.selected = [] → s.agenda = [] → s.numbered → s.goesOn

/-- Each of these completes with its own effect, wherever the state and the operands are as the spec asks: TRAP and BRK take their fault and
HALT ends its team (R124); a deferred record is written (R313); collectives match and land (R294, R295); a command leaves the crossing FIFO
(R203), and the array, the drain and the weight-buffer engine perform theirs (R211, R215, R222); the commands of a queue block (R342, R384,
R387, R391, R392, R394); the words and accesses of the host (R401 to R405, R416); SPDM and the sensors (R408, R425); freezes (R321 to R324).
The model's own choices in it: log 16, 60, 82, 89, 100, 117, 138. -/
def Obligations.FormsComplete : Prop :=
  (∀ s h o, canIssue (.trap h o) s = true → s.servedBy (.trap h o) ≠ 0 → queueOpen s → s.tm.flt.win = none →
    ∃ t, exec (.trap h o) s = .next t ∧ t.tm.st = 2 ∧ t.tm.flt.pf = true ∧ t.tm.flt.code = 0x0E ∧ t.tm.flt.fpc = s.ipc ∧ t.tm.path = loopBack s.ipc (inLine s)) ∧
  (∀ s h o, canIssue (.brk h o) s = true → s.servedBy (.brk h o) ≠ 0 → queueOpen s → s.tm.flt.win = none →
    ∃ t, exec (.brk h o) s = .next t ∧ t.tm.st = 2 ∧ t.tm.flt.pf = true ∧ t.tm.flt.code = 0x0F ∧ t.tm.flt.fpc = s.ipc ∧ t.tm.path = loopBack s.ipc (inLine s)) ∧
  (∀ s h o, canIssue (.halt h o) s = true → s.servedBy (.halt h o) ≠ 0 → s.tm.flt.win = none →
    ∃ t, exec (.halt h o) s = .next t ∧ t.tm.st = 4 ∧ t.tm.path = loopBack s.ipc (inLine s)) ∧
  (∀ s d p w conts, d < 4 → let q := (s.die d).fq
    q.waiting = [p] → p.words = w :: conts → q.en = true → q.used + p.words.length ≤ 1024 →
    ∃ t, exec (.deferredRecordWrite d) s = .next t ∧ (t.die d).fq.waiting = [] ∧ (t.die d).fq.tail = (q.tail + p.words.length) % 1024) ∧
  (∀ (s : State) k id c (peers : List CollPeer), k < 192 → s.stopped k = false →
    (s.core k).copies.find? (fun c => c.id == id && c.kind == 3 && !c.matched) = some c → s.earlierColl c = false → s.collWaits k c = false →
    s.coverOf (s.collBytes c c.sd.toNat) = none →
    (∀ p ∈ peers, p.abandoned = false ∧ p.op = c.op ∧ p.ty = c.ty ∧ p.count = c.count ∧ p.d = c.head ∧ p.digest = s.ctxDigest c.ctx) →
    ∃ t, exec (.collMatch k id peers) s = .next t ∧
      (t.core k).copies = (s.core k).copies.map (fun x => if x.id == id then { x with matched := true } else x)) ∧
  (∀ (s : State) k id c (peers : List CollPeer), k < 192 → s.stopped k = false →
    (s.core k).copies.find? (fun c => c.id == id && c.kind == 3 && c.matched) = some c → s.collWaits k c = false →
    ∃ t, exec (.collCompletion k id peers) s = .next t ∧ (∀ x ∈ (t.core k).copies, x.id ≠ id) ∧ commandOver k c.iss s t) ∧
  (∀ (s : State) k c rest, k < 192 → s.stopped k = false → (s.core k).mat.fifo = c :: rest → (s.core k).mat.mmas = [] → (s.core k).mat.drain = none →
    (∀ clear tr code n w a x, c.op = .mma clear tr code n w a x → s.mmaHeld k c code a x = false) →
    ∃ t, exec (.fifoHeadLeave k) s = .next t ∧ (t.core k).mat.fifo = rest ∧
      match c.op with
      | .wbld .. => (t.core k).mat.loads = (s.core k).mat.loads ++ [c]
      | .adrn .. => (t.core k).mat.drain = some { cmd := c }
      | .mma .. => (t.core k).mat.mmas.map (fun r => (r.cmd, r.chunks)) = [(c, 0)]
      | _ => matOver k c.iss s t) ∧
  (∀ (s : State) k run rest clear tr code n w a x, k < 192 → (s.stopped k = false ∨ run.chunks ≠ 0) → (s.core k).mat.mmas = run :: rest →
    run.cmd.op = .mma clear tr code n w a x →
    ∃ t, exec (.mmaChunk k) s = .next t ∧
      if (x.extractLsb' 0 16).toNat ≤ (run.chunks + 1) * spanOf code run.slot.spar then (t.core k).mat.mmas = rest ∧ matOver k run.cmd.iss s t
      else (t.core k).mat.mmas.map (fun r => (r.cmd, r.chunks)) = (run.cmd, run.chunks + 1) :: rest.map (fun r => (r.cmd, r.chunks))) ∧
  (∀ (s : State) k dr z n a d, k < 192 → (s.core k).mat.drain = some dr → dr.cmd.op = .adrn z n a d → s.drainFree k dr d = true →
    dr.ys = [] → dr.g = 0 →
    dPlain d = true → dDspace d = true → dRes d = 0 → ((s.core k).tile n).promote.1.pz = [] → (∀ e ∈ (s.core k).tabs.guard, e.2.v = false) →
    ((s.core k).group dr.cmd.iss.grp).base + ((s.core k).group dr.cmd.iss.grp).size ≤ 0x30_0000 →
    256 ≤ dStride d → dDst d + 63 * dStride d + 256 ≤ ((s.core k).group dr.cmd.iss.grp).size →
    ∃ t, exec (.drainExecute k) s = .next t ∧ (t.core k).mat.drain = none ∧ matOver k dr.cmd.iss s t) ∧
  (∀ (s : State) k n c a b x, k < 192 → s.stopped k = false → (s.core k).mat.loads = [c] → c.op = .wbld n a b x →
    (s.die (dieOfCore k)).clk.relock = none → s.imageGuarded c.iss.tenant k (imageChunks a.toNat b.toNat
      ((4 * (x.extractLsb' 8 9).toNat * wRecord (x.extractLsb' 0 4).toNat (x.extractLsb' 4 2).toNat + 251) / 252)) = false →
    ∃ t, exec (.wbldCompletion k n) s = .next t ∧ (t.core k).mat.loads = [] ∧ ((t.core k).slot n).load = false ∧ commandOver k c.iss s t) ∧
  (∀ s k g, k < 192 → s.stopped k = false → s.savable k g = true → let c := (s.die (dieOfCore k)).cmd
    c.saveOff + (saveImage s k g).length ≤ (c.preempt.extractLsb' 64 64).toNat →
    ∃ t, exec (.groupSave k g) s = .next t ∧ ((t.core k).group g).slots = [] ∧ (t.die (dieOfCore k)).cmd.saveCnt = c.saveCnt + 1) ∧
  (∀ (s : State) d (w : BitVec 128), d < 4 → w.extractLsb' 40 85 = 0 → w.getLsbD 127 = true → let tag := (w.extractLsb' 0 40).toNat
    (s.task tag).live = true →
    ∃ t, exec (.kill d w) s = .next t ∧ (t.die d).cmd.kill = (w.extractLsb' 0 40).zeroExtend 128 ∧
      ∀ k i, i < 16 → (s.team k i).id.tag = tag → ((s.team k i).st = 1 ∨ (s.team k i).st = 2) → (t.team k i).st = 4) ∧
  (∀ (s : State) d (w : BitVec 256) x g, d < 4 → w.extractLsb' 168 85 = 0 → w.getLsbD 255 = true → (s.die d).cmd.saving = false →
    x ∈ s.cores → dieOfCore x.1 = d → g ∈ x.2.resident → g.2.tag = (w.extractLsb' 128 40).toNat → (s.task (w.extractLsb' 128 40).toNat).live = true →
    ∃ t, exec (.preempt d w) s = .next t ∧ (t.die d).cmd.saving = true ∧ (t.die d).cmd.preempt.getLsbD 255 = true ∧
      (w.extractLsb' 128 40).toNat ∈ (t.die d).disp.paused) ∧
  (∀ (s : State) d (w : BitVec 128) pas, d < 4 → w.extractLsb' 64 61 = 0 → w.getLsbD 127 = true →
    s.directory (w.extractLsb' 0 64).toNat = some pas →
    let im := fun pa => imageMap (s.readBB pa 256)
    let tag := (im (pas.headD 0)).tag
    let gs : List Nat := pas.map (fun pa => (im pa).gref.toNat / 2 ^ 32)
    (∀ pa ∈ pas, (im pa).tag = tag ∧ (im pa).ok (s.readBB pa 256) = true) → gs.Nodup → (s.task tag).live = true →
    (s.task tag).killed = false → (∀ g ∈ gs, g ∈ (s.task tag).saved) →
    ∃ t, exec (.resume d w) s = .next t ∧ (t.die d).cmd.resume = (w.extractLsb' 0 64).zeroExtend 128 ∧ ∀ e, e < 4 → tag ∉ (t.die e).disp.paused) ∧
  (∀ s d (w : Word) r, d < 4 → w.extractLsb' 34 28 = 0 → w.getLsbD 63 = true → (w.extractLsb' 32 2).toNat ≤ 1 →
    (s.die d).fq.recs.find? (fun r => r.pend && r.handle.toNat == (w.extractLsb' 0 32).toNat) = some r → r.agent = 0 →
    (s.team r.core r.unit).id.gref = r.gref → (s.team r.core r.unit).st ≠ 0 → (s.team r.core r.unit).flt.pf = true →
    ∃ t, exec (.resolve d w) s = .next t ∧ (t.die d).cmd.resolve = (w.extractLsb' 0 34).zeroExtend 64 ∧
      (t.team r.core r.unit).st = 1 ∧ (t.team r.core r.unit).flt.pf = false) ∧
  (∀ (s : State) d (w : BitVec 128), d < 4 → (s.die d).cmd.inval.getLsbD 127 = false → w.getLsbD 127 = true → w.extractLsb' 76 41 = 0 →
    (w.extractLsb' 125 2 = 0 → ∃ t, exec (.invalidateAll d w) s = .next t ∧ (∀ k, (t.core k).tabs.tlb = []) ∧ ∀ e, e < 4 → (t.die e).tlb = []) ∧
    (w.extractLsb' 125 2 = 1 → ∃ t, exec (.invalidateTenant d w) s = .next t ∧
      (∀ k, ∀ e ∈ (t.core k).tabs.tlb, e.tenant ≠ (w.extractLsb' 117 8).toNat) ∧ ∀ n, n < 4 → ∀ e ∈ (t.die n).tlb, e.tenant ≠ (w.extractLsb' 117 8).toNat) ∧
    (w.extractLsb' 125 2 = 2 → ∃ t, exec (.invalidatePages d w) s = .next t ∧
      let hit := fun (e : TlbEntry) => e.tenant = (w.extractLsb' 117 8).toNat ∧
        e.vpn < (w.extractLsb' 32 44).toNat + (w.extractLsb' 0 32).toNat ∧ (w.extractLsb' 32 44).toNat < e.vpn + e.pages
      (∀ k, ∀ e ∈ (t.core k).tabs.tlb, ¬ hit e) ∧ ∀ n, n < 4 → ∀ e ∈ (t.die n).tlb, ¬ hit e)) ∧
  (∀ s k (w : BitVec 256), k < 256 → w.getLsbD 255 = true → contextOk w.toNat = true →
    ∃ t, exec (.contextEntryWrite k w) s = .next t ∧ (Tbl.get 0 t.io.ctxs k).getLsbD 255 = true ∧
      (Tbl.get 0 t.io.ctxs k).extractLsb' 160 64 = w.extractLsb' 160 64) ∧
  (∀ s k (w : BitVec 512), k < 4 → (Tbl.get {} s.io.grids k : Grid).holder = none →
    ∃ t, exec (.gridMapWrite k w) s = .next t ∧ (Tbl.get {} t.io.grids k : Grid).map = w.extractLsb' 0 256 ∧
      (Tbl.get {} t.io.grids k : Grid).tenant = (w.extractLsb' 256 8).toNat ∧ (Tbl.get {} t.io.grids k : Grid).en = w.getLsbD 264) ∧
  (∀ s k (w : BitVec 512), k < 16 → (Tbl.get {} s.io.imports k : Import).en = false →
    ∃ t, exec (.importWindowWrite k w) s = .next t ∧ (Tbl.get {} t.io.imports k : Import) =
      { en := w.getLsbD 136, tenant := (w.extractLsb' 128 8).toNat, base := (w.extractLsb' 16 48).toNat * 65536
        limit := (w.extractLsb' 80 48).toNat * 65536, src := w.extractLsb' 256 256 }) ∧
  (∀ (s : State) k (w : Word), k < 16 → vfBound (s.binding k) = false → vfTenant w ≠ 0xFF →
    ∃ t, exec (.vfBindingWrite k w) s = .next t ∧ Tbl.get 0 t.io.vfb k = w &&& 0xFFFF_FFF8_0000_0000) ∧
  (∀ s d (data : List Byte), s.ctrl.boot = 7 → s.ctrl.power ≠ 2 → d < 4 → data.length = 8 →
    ∃ t, exec (.hostRegisterWrite (0x10_0000 * d + 0x1000) data) s = .next t ∧ (t.die d).disp.steal = leNat data % 2 ^ 20) ∧
  (∀ s off len, s.fnOpen 0 = true → off + len ≤ bar4Size 0 → (∀ i, i < len → s.pfByte (off + i) = true) → s.mem.unc off len = false →
    ∃ t, exec (.hostMemoryRead 0 off len) s = .next t ∧ t.io.answers = s.io.answers ++ [(0, (List.range len).map (fun i => s.mem.byte (off + i)))]) ∧
  (∀ s off (data : List Byte), s.fnOpen 0 = true → off + data.length ≤ bar4Size 0 → (∀ i, i < data.length → s.pfByte (off + i) = true) →
    ∃ t, exec (.hostMemoryWrite 0 off data) s = .next t ∧ ∀ i, i < data.length → t.mem.byte (off + i) = data.getD i 0) ∧
  (∀ s fn va, fn < 17 → ∃ t, exec (.atsInvalidation fn va) s = .next t ∧ (fn, va / 4096) ∉ t.io.ats) ∧
  (∀ s temps p, s.ctrl.boot = 7 → s.ctrl.power ≠ 2 → s.ctrl.sensed + 100000 ≤ s.time → s.ctrl.waiting = [] → (∀ x ∈ temps, x ≤ 1100) →
    ∃ t, exec (.sensorPeriod temps p) s = .next t ∧ ∀ d, d < 4 → (t.die d).clk.temp = temps.getD d 0) ∧
  (∀ (s : State) odie core cause strct, odie < 6 → 1 ≤ cause → cause < 8 → core < 192 → (s.core core).rcd.frz = false →
    ∃ t f, exec (.fatalCondition odie core cause strct) s = .next t ∧ t.ctrl.freezes = s.ctrl.freezes ++ [f] ∧ f.cause = cause ∧ f.time = s.time ∧
      (t.core core).ctl.stopped = true) ∧
  (∀ (s : State) d miss f fs, d < 4 → (s.die d).frozen = false → s.ctrl.freezes = f :: fs →
    ∃ t, exec (.freezeReceipt d miss) s = .next t ∧ (t.die d).frozen = true) ∧
  (∀ (s : State) salt f fs, s.ctrl.freezes = f :: fs → s.ctrl.assembled = false → f.time + 2000 ≤ s.time → s.ctrl.resetHeld = false → s.ctrl.trip = false →
    (∀ g ∈ s.ctrl.freezes, g.cause ≠ 5) → (s.store 0).st ≠ 1 →
    ∃ t, exec (.capsuleAssembly salt) s = .next t ∧ t.ctrl.assembled = true ∧ (t.store 0).st = 1 ∧ (t.store 0).serial = s.ctrl.serial) ∧
  ∀ (s : State) req, s.ctrl.boot = 7 → leNat ((req.drop 2).take 1) % 16 = 0 → ∀ x ∈ [(Instr.spdmGetVersion req, 0x04), (.spdmGetCapabilities req, 0x61),
      (.spdmNegotiateAlgorithms req, 0x63), (.spdmGetDigests req, 0x01), (.spdmGetCertificate req, 0x02), (.spdmChallenge req, 0x03),
      (.spdmGetMeasurements req, 0x60)],
    ∃ t bs, exec x.1 s = .next t ∧ t.io.spdm = s.io.spdm ++ [(x.2, bs)]

/-- R86, R93, R96, R97, R100, R102: words of every format, written out field by field. -/
def Obligations.DecodesWrittenWords : Prop :=
  decode (0b0011#4 ++ 0b000000000101#12 ++ 0b0010#4 ++ 0b001000000#9 ++ 0b0000#4 ++ 0b000011#6 ++ 0b000001#6 ++ 0b000010#6 ++ 0b000000#6 ++
      0b0#1 ++ 0b1#1 ++ 0b00100#5) =
    .ok (.sadd { stall := 3, wait := 5, sig := 2, guard := 0 } { d := 3, a := 1, b := 2, c := 0, bs := false, x := true, ty := 4 }) ∧
  decode (0b0000#4 ++ 0b000000000000#12 ++ 0b0000#4 ++ 0b001000010#9 ++ 0b0101#4 ++ 0b111111#6 ++ 0b000001#6 ++ 0b1111111111111111111#19) =
    .ok (.saddi { stall := 0, wait := 0, sig := 0, guard := 5 } { d := 63, a := 1, imm := 0x7FFFF }) ∧
  decode (0b0000#4 ++ 0b000000000000#12 ++ 0b1100#4 ++ 0b001010100#9 ++ 0b0000#4 ++ 0b000010#6 ++ 0b1000000000000000000000001#25) =
    .ok (.sli { stall := 0, wait := 0, sig := 12, guard := 0 } { d := 2, imm := 0x1000001 }) ∧
  decode (0b0000#4 ++ 0b000000000000#12 ++ 0b0000#4 ++ 0b000000010#9 ++ 0b0001#4 ++ 0b1111111111111110#16 ++ 0b000000000000010#15) =
    .ok (.bra { stall := 0, wait := 0, sig := 0, guard := 1 } { target := 0xFFFE, join := 2 }) ∧
  decode (0b0001#4 ++ 0b100000000000#12 ++ 0b0001#4 ++ 0b110000000#9 ++ 0b0000#4 ++ 0b000100#6 ++ 0b000010#6 ++ 0b000011#6 ++ 0b01100#5 ++
      0b000#3 ++ 0b00#2 ++ 0b01#2 ++ 0b0#1) =
    .ok (.ld { stall := 1, wait := 0x800, sig := 1, guard := 0 }
      { d := 4, a := 2, b := 3, ty := 0xC, scope := 0, order := 0, hint := 1, space := false }) ∧
  decode (0b0000#4 ++ 0b000000000000#12 ++ 0b0000#4 ++ 0b000000110#9 ++ 0b000#3 ++ 0b10000000000000000000000000000001#32) =
    .ok (.land { stall := 0, wait := 0, sig := 0, guard := 0 } { imm := 0x80000001 }) ∧
  decode (0b0000#4 ++ 0b000000000000#12 ++ 0b0000#4 ++ 0b110110010#9 ++ 0b0000#4 ++ 0b000111#6 ++ 0b00011#5 ++ 0b0100#4 ++ 0b0000000000000001#16) =
    .ok (.bsync { stall := 0, wait := 0, sig := 0, guard := 0 } { d := 7, obj := 3, t := 4, count := 1 }) ∧
  decode 0 = .error .opcodeZero ∧ decode (0b011111111#64 <<< 35) = .error (.unallocated 0xFF) ∧
  decode ((0b000000110#64 <<< 35) ||| (1#64 <<< 33)) = .error .formatS ∧
  decode ((0b001000000#64 <<< 35) ||| (0b1101#64 <<< 44)) = .error (.illFormed .sig) ∧
  decode ((0b001000000#64 <<< 35) ||| (0b1000#64 <<< 31) ||| 4#64) = .error (.illFormed .guard)

/-- R86 to R102: the word of a well-formed instruction decodes to that instruction; and every word that decodes at all is the word of the
instruction it decodes to, which is well-formed: no bit of an encoding is dropped, and no two words are one instruction. -/
def Obligations.DecodeEncodeAgree : Prop :=
  (∀ i w, i.wf = true → encode i = some w → decode w = .ok i) ∧ ∀ w i, decode w = .ok i → encode i = some w ∧ i.wf = true

/-- R306, R391, R392: after every step each die's idle time runs exactly while it sits idle, and a preemption is busy only while a group is
still to be saved. It holds of the state after every step, from whatever state. -/
def Obligations.StepsSettleDies : Prop := ∀ s t, step s = .next t → t.diesSettled

/-- R29, R35, R297, R320, R376, R420: what reset leaves; and the invariant of the steps holds there.
The model's own choices in it: log 9, 10, 11. -/
def Obligations.ResetState : Prop :=
  State.reset.diesSettled ∧ State.reset.numbered ∧ State.reset.mem.wf = true ∧ (∀ a, State.reset.mem.byte a = 0 ∧ State.reset.mem.isBad a = false) ∧
  (∀ k i, (State.reset.team k i).st = 0) ∧ (∀ k, (State.reset.core k).resident = [] ∧ (State.reset.core k).ctl.spinth = 64 ∧
    (State.reset.core k).rcd.ring = [(0, evWord 0x12 0 0xFF 0 0)] ∧ (State.reset.core k).rcd.frz = false) ∧
  (∀ q, (State.reset.tq q).en = false) ∧ (∀ d, (State.reset.die d).disp.steal = 2000 ∧ (State.reset.die d).clk.step = 1) ∧
  State.reset.ctrl.boot = 7 ∧ State.reset.ctrl.power = 0
end

