-- ==== Sys2Proof/Laws/Tbl.lean ====
section
/-! SUPPORT. Laws of sparse tables: reading after writing, and that writing keeps the canonical form. -/

namespace Sys2Proof.Machine

variable {α : Type}

@[simp] theorem Tbl.get_nil (d : α) (i : Nat) : Tbl.get d ([] : Tbl α) i = d := rfl

theorem Tbl.get_cons (d : α) (e : Nat × α) (t : Tbl α) (i : Nat) :
    Tbl.get d (e :: t) i = if i = e.1 then e.2 else Tbl.get d t i := by
  cases e; rfl

theorem Tbl.get_ins (d : α) (t : Tbl α) (i j : Nat) (v : α) :
    Tbl.get d (Tbl.ins i v t) j = if j = i then v else Tbl.get d t j := by
  induction t with
  | nil => rfl
  | cons e t ih =>
    obtain ⟨k, w⟩ := e
    unfold Tbl.ins
    split
    · simp only [Tbl.get_cons]
    · split
      · subst_vars; simp only [Tbl.get_cons]; split <;> rfl
      · simp only [Tbl.get_cons, ih]; split_ifs <;> simp_all

theorem Tbl.get_erase (d : α) (t : Tbl α) (i j : Nat) :
    Tbl.get d (Tbl.erase i t) j = if j = i then d else Tbl.get d t j := by
  induction t with
  | nil => simp [Tbl.erase]
  | cons e t ih =>
    obtain ⟨k, w⟩ := e
    simp only [Tbl.erase, List.filter_cons] at ih ⊢
    split_ifs <;> simp_all [Tbl.get_cons] <;> grind

/-- Reading after writing: the index written reads as the value, every other index as before. -/
theorem Tbl.get_set [DecidableEq α] (d : α) (t : Tbl α) (i j : Nat) (v : α) :
    Tbl.get d (Tbl.set d t i v) j = if j = i then v else Tbl.get d t j := by
  unfold Tbl.set
  split
  · subst_vars; rw [Tbl.get_erase]
  · rw [Tbl.get_ins]

@[simp] theorem Tbl.get_set_same [DecidableEq α] (d : α) (t : Tbl α) (i : Nat) (v : α) : Tbl.get d (Tbl.set d t i v) i = v := by
  simp [Tbl.get_set]

theorem Tbl.get_set_ne [DecidableEq α] (d : α) (t : Tbl α) {i j : Nat} (v : α) (h : j ≠ i) :
    Tbl.get d (Tbl.set d t i v) j = Tbl.get d t j := by
  simp [Tbl.get_set, h]

theorem Tbl.get_upd [DecidableEq α] (d : α) (t : Tbl α) (i j : Nat) (f : α → α) :
    Tbl.get d (Tbl.upd d t i f) j = if j = i then f (Tbl.get d t i) else Tbl.get d t j := Tbl.get_set ..

@[simp] theorem Tbl.get_upd_same [DecidableEq α] (d : α) (t : Tbl α) (i : Nat) (f : α → α) :
    Tbl.get d (Tbl.upd d t i f) i = f (Tbl.get d t i) := by simp [Tbl.get_upd]

theorem Tbl.wfFrom_le [DecidableEq α] (d : α) {lo lo' : Nat} (t : Tbl α) (h : lo' ≤ lo) (w : Tbl.wfFrom d lo t = true) :
    Tbl.wfFrom d lo' t = true := by
  cases t with
  | nil => rfl
  | cons e t => simp_all [Tbl.wfFrom]; omega

theorem Tbl.wfFrom_filter [DecidableEq α] (d : α) (p : Nat × α → Bool) (t : Tbl α) (lo : Nat) (w : Tbl.wfFrom d lo t = true) :
    Tbl.wfFrom d lo (t.filter p) = true := by
  induction t generalizing lo with
  | nil => rfl
  | cons e t ih =>
    simp only [Tbl.wfFrom, Bool.and_eq_true, decide_eq_true_eq] at w
    simp only [List.filter_cons]
    split
    · simp [Tbl.wfFrom, w.1.1, w.1.2, ih _ w.2]
    · exact Tbl.wfFrom_le d _ (by omega) (ih _ w.2)

theorem Tbl.wfFrom_ins [DecidableEq α] (d : α) (t : Tbl α) (i lo : Nat) (v : α) (hv : v ≠ d) (hi : lo ≤ i) (w : Tbl.wfFrom d lo t = true) :
    Tbl.wfFrom d lo (Tbl.ins i v t) = true := by
  induction t generalizing lo with
  | nil => simp [Tbl.ins, Tbl.wfFrom, hv, hi]
  | cons e t ih =>
    obtain ⟨k, x⟩ := e
    simp only [Tbl.wfFrom, Bool.and_eq_true, decide_eq_true_eq] at w
    unfold Tbl.ins
    split
    · simp [Tbl.wfFrom, hv, hi, w.1.2, w.2]; omega
    · split
      · subst_vars; simp [Tbl.wfFrom, hv, w.1.1, w.2]
      · simp [Tbl.wfFrom, w.1.1, w.1.2, ih (k + 1) (by omega) w.2]

/-- Writing keeps the canonical form. -/
theorem Tbl.wf_set [DecidableEq α] (d : α) (t : Tbl α) (i : Nat) (v : α) (w : Tbl.wf d t = true) : Tbl.wf d (Tbl.set d t i v) = true := by
  unfold Tbl.set
  split
  · exact Tbl.wfFrom_filter d _ t 0 w
  · exact Tbl.wfFrom_ins d t i 0 v (by assumption) (by omega) w

theorem Tbl.wf_upd [DecidableEq α] (d : α) (t : Tbl α) (i : Nat) (f : α → α) (w : Tbl.wf d t = true) :
    Tbl.wf d (Tbl.upd d t i f) = true := Tbl.wf_set d t i _ w

theorem Tbl.wf_setMany [DecidableEq α] (d : α) (es : List (Nat × α)) (t : Tbl α) (w : Tbl.wf d t = true) :
    Tbl.wf d (Tbl.setMany d t es) = true := by
  induction es generalizing t with
  | nil => exact w
  | cons e es ih => exact ih _ (Tbl.wf_set d t e.1 e.2 w)

theorem Tbl.wf_clear [DecidableEq α] (d : α) (lo hi : Nat) (t : Tbl α) (w : Tbl.wf d t = true) : Tbl.wf d (Tbl.clear lo hi t) = true :=
  Tbl.wfFrom_filter d _ t 0 w

/-- Two tables in canonical form that read alike everywhere are the same table. -/
theorem Tbl.wfFrom_get_lt [DecidableEq α] (d : α) (t : Tbl α) (lo i : Nat) (w : Tbl.wfFrom d lo t = true) (h : i < lo) : Tbl.get d t i = d := by
  induction t generalizing lo with
  | nil => rfl
  | cons e t ih =>
    simp only [Tbl.wfFrom, Bool.and_eq_true, decide_eq_true_eq] at w
    rw [Tbl.get_cons, if_neg (by omega)]
    exact ih (e.1 + 1) w.2 (by omega)

end Sys2Proof.Machine
end

