-- ==== Sys2Proof/Laws/State.lean ====
section
/-! SUPPORT. Laws of the state: what each update of a part leaves of every other part, so that no proof unfolds a record update. -/

namespace Sys2Proof.Machine

/-! One field per update. -/

@[simp] theorem State.mem_setCore (s : State) (k : Nat) (c : Core) : (s.setCore k c).mem = s.mem := rfl
@[simp] theorem State.dies_setCore (s : State) (k : Nat) (c : Core) : (s.setCore k c).dies = s.dies := rfl
@[simp] theorem State.tasks_setCore (s : State) (k : Nat) (c : Core) : (s.setCore k c).tasks = s.tasks := rfl
@[simp] theorem State.io_setCore (s : State) (k : Nat) (c : Core) : (s.setCore k c).io = s.io := rfl
@[simp] theorem State.ports_setCore (s : State) (k : Nat) (c : Core) : (s.setCore k c).ports = s.ports := rfl
@[simp] theorem State.ctrl_setCore (s : State) (k : Nat) (c : Core) : (s.setCore k c).ctrl = s.ctrl := rfl
@[simp] theorem State.time_setCore (s : State) (k : Nat) (c : Core) : (s.setCore k c).time = s.time := rfl
@[simp] theorem State.ddr_setCore (s : State) (k : Nat) (c : Core) : (s.setCore k c).ddr = s.ddr := rfl
@[simp] theorem State.cur_setCore (s : State) (k : Nat) (c : Core) : (s.setCore k c).cur = s.cur := rfl
@[simp] theorem State.selected_setCore (s : State) (k : Nat) (c : Core) : (s.setCore k c).selected = s.selected := rfl
@[simp] theorem State.agenda_setCore (s : State) (k : Nat) (c : Core) : (s.setCore k c).agenda = s.agenda := rfl
@[simp] theorem State.turn_setCore (s : State) (k : Nat) (c : Core) : (s.setCore k c).turn = s.turn := rfl
@[simp] theorem State.seq_setCore (s : State) (k : Nat) (c : Core) : (s.setCore k c).seq = s.seq := rfl
@[simp] theorem State.mem_onCore (s : State) (k : Nat) (f : Core → Core) : (s.onCore k f).mem = s.mem := rfl
@[simp] theorem State.dies_onCore (s : State) (k : Nat) (f : Core → Core) : (s.onCore k f).dies = s.dies := rfl
@[simp] theorem State.tasks_onCore (s : State) (k : Nat) (f : Core → Core) : (s.onCore k f).tasks = s.tasks := rfl
@[simp] theorem State.io_onCore (s : State) (k : Nat) (f : Core → Core) : (s.onCore k f).io = s.io := rfl
@[simp] theorem State.ports_onCore (s : State) (k : Nat) (f : Core → Core) : (s.onCore k f).ports = s.ports := rfl
@[simp] theorem State.ctrl_onCore (s : State) (k : Nat) (f : Core → Core) : (s.onCore k f).ctrl = s.ctrl := rfl
@[simp] theorem State.time_onCore (s : State) (k : Nat) (f : Core → Core) : (s.onCore k f).time = s.time := rfl
@[simp] theorem State.ddr_onCore (s : State) (k : Nat) (f : Core → Core) : (s.onCore k f).ddr = s.ddr := rfl
@[simp] theorem State.cur_onCore (s : State) (k : Nat) (f : Core → Core) : (s.onCore k f).cur = s.cur := rfl
@[simp] theorem State.selected_onCore (s : State) (k : Nat) (f : Core → Core) : (s.onCore k f).selected = s.selected := rfl
@[simp] theorem State.agenda_onCore (s : State) (k : Nat) (f : Core → Core) : (s.onCore k f).agenda = s.agenda := rfl
@[simp] theorem State.turn_onCore (s : State) (k : Nat) (f : Core → Core) : (s.onCore k f).turn = s.turn := rfl
@[simp] theorem State.seq_onCore (s : State) (k : Nat) (f : Core → Core) : (s.onCore k f).seq = s.seq := rfl
@[simp] theorem State.mem_setDie (s : State) (d : Nat) (x : Die) : (s.setDie d x).mem = s.mem := rfl
@[simp] theorem State.cores_setDie (s : State) (d : Nat) (x : Die) : (s.setDie d x).cores = s.cores := rfl
@[simp] theorem State.tasks_setDie (s : State) (d : Nat) (x : Die) : (s.setDie d x).tasks = s.tasks := rfl
@[simp] theorem State.io_setDie (s : State) (d : Nat) (x : Die) : (s.setDie d x).io = s.io := rfl
@[simp] theorem State.ports_setDie (s : State) (d : Nat) (x : Die) : (s.setDie d x).ports = s.ports := rfl
@[simp] theorem State.ctrl_setDie (s : State) (d : Nat) (x : Die) : (s.setDie d x).ctrl = s.ctrl := rfl
@[simp] theorem State.time_setDie (s : State) (d : Nat) (x : Die) : (s.setDie d x).time = s.time := rfl
@[simp] theorem State.ddr_setDie (s : State) (d : Nat) (x : Die) : (s.setDie d x).ddr = s.ddr := rfl
@[simp] theorem State.cur_setDie (s : State) (d : Nat) (x : Die) : (s.setDie d x).cur = s.cur := rfl
@[simp] theorem State.selected_setDie (s : State) (d : Nat) (x : Die) : (s.setDie d x).selected = s.selected := rfl
@[simp] theorem State.agenda_setDie (s : State) (d : Nat) (x : Die) : (s.setDie d x).agenda = s.agenda := rfl
@[simp] theorem State.turn_setDie (s : State) (d : Nat) (x : Die) : (s.setDie d x).turn = s.turn := rfl
@[simp] theorem State.seq_setDie (s : State) (d : Nat) (x : Die) : (s.setDie d x).seq = s.seq := rfl
@[simp] theorem State.mem_onDie (s : State) (d : Nat) (f : Die → Die) : (s.onDie d f).mem = s.mem := rfl
@[simp] theorem State.cores_onDie (s : State) (d : Nat) (f : Die → Die) : (s.onDie d f).cores = s.cores := rfl
@[simp] theorem State.tasks_onDie (s : State) (d : Nat) (f : Die → Die) : (s.onDie d f).tasks = s.tasks := rfl
@[simp] theorem State.io_onDie (s : State) (d : Nat) (f : Die → Die) : (s.onDie d f).io = s.io := rfl
@[simp] theorem State.ports_onDie (s : State) (d : Nat) (f : Die → Die) : (s.onDie d f).ports = s.ports := rfl
@[simp] theorem State.ctrl_onDie (s : State) (d : Nat) (f : Die → Die) : (s.onDie d f).ctrl = s.ctrl := rfl
@[simp] theorem State.time_onDie (s : State) (d : Nat) (f : Die → Die) : (s.onDie d f).time = s.time := rfl
@[simp] theorem State.ddr_onDie (s : State) (d : Nat) (f : Die → Die) : (s.onDie d f).ddr = s.ddr := rfl
@[simp] theorem State.cur_onDie (s : State) (d : Nat) (f : Die → Die) : (s.onDie d f).cur = s.cur := rfl
@[simp] theorem State.selected_onDie (s : State) (d : Nat) (f : Die → Die) : (s.onDie d f).selected = s.selected := rfl
@[simp] theorem State.agenda_onDie (s : State) (d : Nat) (f : Die → Die) : (s.onDie d f).agenda = s.agenda := rfl
@[simp] theorem State.turn_onDie (s : State) (d : Nat) (f : Die → Die) : (s.onDie d f).turn = s.turn := rfl
@[simp] theorem State.seq_onDie (s : State) (d : Nat) (f : Die → Die) : (s.onDie d f).seq = s.seq := rfl
@[simp] theorem State.mem_setTeam (s : State) (k i : Nat) (t : Team) : (s.setTeam k i t).mem = s.mem := rfl
@[simp] theorem State.dies_setTeam (s : State) (k i : Nat) (t : Team) : (s.setTeam k i t).dies = s.dies := rfl
@[simp] theorem State.tasks_setTeam (s : State) (k i : Nat) (t : Team) : (s.setTeam k i t).tasks = s.tasks := rfl
@[simp] theorem State.io_setTeam (s : State) (k i : Nat) (t : Team) : (s.setTeam k i t).io = s.io := rfl
@[simp] theorem State.ports_setTeam (s : State) (k i : Nat) (t : Team) : (s.setTeam k i t).ports = s.ports := rfl
@[simp] theorem State.ctrl_setTeam (s : State) (k i : Nat) (t : Team) : (s.setTeam k i t).ctrl = s.ctrl := rfl
@[simp] theorem State.time_setTeam (s : State) (k i : Nat) (t : Team) : (s.setTeam k i t).time = s.time := rfl
@[simp] theorem State.ddr_setTeam (s : State) (k i : Nat) (t : Team) : (s.setTeam k i t).ddr = s.ddr := rfl
@[simp] theorem State.cur_setTeam (s : State) (k i : Nat) (t : Team) : (s.setTeam k i t).cur = s.cur := rfl
@[simp] theorem State.selected_setTeam (s : State) (k i : Nat) (t : Team) : (s.setTeam k i t).selected = s.selected := rfl
@[simp] theorem State.agenda_setTeam (s : State) (k i : Nat) (t : Team) : (s.setTeam k i t).agenda = s.agenda := rfl
@[simp] theorem State.turn_setTeam (s : State) (k i : Nat) (t : Team) : (s.setTeam k i t).turn = s.turn := rfl
@[simp] theorem State.seq_setTeam (s : State) (k i : Nat) (t : Team) : (s.setTeam k i t).seq = s.seq := rfl
@[simp] theorem State.mem_onTeam (s : State) (k i : Nat) (f : Team → Team) : (s.onTeam k i f).mem = s.mem := rfl
@[simp] theorem State.dies_onTeam (s : State) (k i : Nat) (f : Team → Team) : (s.onTeam k i f).dies = s.dies := rfl
@[simp] theorem State.tasks_onTeam (s : State) (k i : Nat) (f : Team → Team) : (s.onTeam k i f).tasks = s.tasks := rfl
@[simp] theorem State.io_onTeam (s : State) (k i : Nat) (f : Team → Team) : (s.onTeam k i f).io = s.io := rfl
@[simp] theorem State.ports_onTeam (s : State) (k i : Nat) (f : Team → Team) : (s.onTeam k i f).ports = s.ports := rfl
@[simp] theorem State.ctrl_onTeam (s : State) (k i : Nat) (f : Team → Team) : (s.onTeam k i f).ctrl = s.ctrl := rfl
@[simp] theorem State.time_onTeam (s : State) (k i : Nat) (f : Team → Team) : (s.onTeam k i f).time = s.time := rfl
@[simp] theorem State.ddr_onTeam (s : State) (k i : Nat) (f : Team → Team) : (s.onTeam k i f).ddr = s.ddr := rfl
@[simp] theorem State.cur_onTeam (s : State) (k i : Nat) (f : Team → Team) : (s.onTeam k i f).cur = s.cur := rfl
@[simp] theorem State.selected_onTeam (s : State) (k i : Nat) (f : Team → Team) : (s.onTeam k i f).selected = s.selected := rfl
@[simp] theorem State.agenda_onTeam (s : State) (k i : Nat) (f : Team → Team) : (s.onTeam k i f).agenda = s.agenda := rfl
@[simp] theorem State.turn_onTeam (s : State) (k i : Nat) (f : Team → Team) : (s.onTeam k i f).turn = s.turn := rfl
@[simp] theorem State.seq_onTeam (s : State) (k i : Nat) (f : Team → Team) : (s.onTeam k i f).seq = s.seq := rfl
@[simp] theorem State.mem_onGath (s : State) (k g : Nat) (f : Gatherer → Gatherer) : (s.onGath k g f).mem = s.mem := rfl
@[simp] theorem State.dies_onGath (s : State) (k g : Nat) (f : Gatherer → Gatherer) : (s.onGath k g f).dies = s.dies := rfl
@[simp] theorem State.tasks_onGath (s : State) (k g : Nat) (f : Gatherer → Gatherer) : (s.onGath k g f).tasks = s.tasks := rfl
@[simp] theorem State.io_onGath (s : State) (k g : Nat) (f : Gatherer → Gatherer) : (s.onGath k g f).io = s.io := rfl
@[simp] theorem State.ports_onGath (s : State) (k g : Nat) (f : Gatherer → Gatherer) : (s.onGath k g f).ports = s.ports := rfl
@[simp] theorem State.ctrl_onGath (s : State) (k g : Nat) (f : Gatherer → Gatherer) : (s.onGath k g f).ctrl = s.ctrl := rfl
@[simp] theorem State.time_onGath (s : State) (k g : Nat) (f : Gatherer → Gatherer) : (s.onGath k g f).time = s.time := rfl
@[simp] theorem State.ddr_onGath (s : State) (k g : Nat) (f : Gatherer → Gatherer) : (s.onGath k g f).ddr = s.ddr := rfl
@[simp] theorem State.cur_onGath (s : State) (k g : Nat) (f : Gatherer → Gatherer) : (s.onGath k g f).cur = s.cur := rfl
@[simp] theorem State.selected_onGath (s : State) (k g : Nat) (f : Gatherer → Gatherer) : (s.onGath k g f).selected = s.selected := rfl
@[simp] theorem State.agenda_onGath (s : State) (k g : Nat) (f : Gatherer → Gatherer) : (s.onGath k g f).agenda = s.agenda := rfl
@[simp] theorem State.turn_onGath (s : State) (k g : Nat) (f : Gatherer → Gatherer) : (s.onGath k g f).turn = s.turn := rfl
@[simp] theorem State.seq_onGath (s : State) (k g : Nat) (f : Gatherer → Gatherer) : (s.onGath k g f).seq = s.seq := rfl
@[simp] theorem State.mem_onGroup (s : State) (k g : Nat) (f : Group → Group) : (s.onGroup k g f).mem = s.mem := rfl
@[simp] theorem State.dies_onGroup (s : State) (k g : Nat) (f : Group → Group) : (s.onGroup k g f).dies = s.dies := rfl
@[simp] theorem State.tasks_onGroup (s : State) (k g : Nat) (f : Group → Group) : (s.onGroup k g f).tasks = s.tasks := rfl
@[simp] theorem State.io_onGroup (s : State) (k g : Nat) (f : Group → Group) : (s.onGroup k g f).io = s.io := rfl
@[simp] theorem State.ports_onGroup (s : State) (k g : Nat) (f : Group → Group) : (s.onGroup k g f).ports = s.ports := rfl
@[simp] theorem State.ctrl_onGroup (s : State) (k g : Nat) (f : Group → Group) : (s.onGroup k g f).ctrl = s.ctrl := rfl
@[simp] theorem State.time_onGroup (s : State) (k g : Nat) (f : Group → Group) : (s.onGroup k g f).time = s.time := rfl
@[simp] theorem State.ddr_onGroup (s : State) (k g : Nat) (f : Group → Group) : (s.onGroup k g f).ddr = s.ddr := rfl
@[simp] theorem State.cur_onGroup (s : State) (k g : Nat) (f : Group → Group) : (s.onGroup k g f).cur = s.cur := rfl
@[simp] theorem State.selected_onGroup (s : State) (k g : Nat) (f : Group → Group) : (s.onGroup k g f).selected = s.selected := rfl
@[simp] theorem State.agenda_onGroup (s : State) (k g : Nat) (f : Group → Group) : (s.onGroup k g f).agenda = s.agenda := rfl
@[simp] theorem State.turn_onGroup (s : State) (k g : Nat) (f : Group → Group) : (s.onGroup k g f).turn = s.turn := rfl
@[simp] theorem State.seq_onGroup (s : State) (k g : Nat) (f : Group → Group) : (s.onGroup k g f).seq = s.seq := rfl
@[simp] theorem State.mem_onTabs (s : State) (k : Nat) (f : CoreTabs → CoreTabs) : (s.onTabs k f).mem = s.mem := rfl
@[simp] theorem State.dies_onTabs (s : State) (k : Nat) (f : CoreTabs → CoreTabs) : (s.onTabs k f).dies = s.dies := rfl
@[simp] theorem State.tasks_onTabs (s : State) (k : Nat) (f : CoreTabs → CoreTabs) : (s.onTabs k f).tasks = s.tasks := rfl
@[simp] theorem State.io_onTabs (s : State) (k : Nat) (f : CoreTabs → CoreTabs) : (s.onTabs k f).io = s.io := rfl
@[simp] theorem State.ports_onTabs (s : State) (k : Nat) (f : CoreTabs → CoreTabs) : (s.onTabs k f).ports = s.ports := rfl
@[simp] theorem State.ctrl_onTabs (s : State) (k : Nat) (f : CoreTabs → CoreTabs) : (s.onTabs k f).ctrl = s.ctrl := rfl
@[simp] theorem State.time_onTabs (s : State) (k : Nat) (f : CoreTabs → CoreTabs) : (s.onTabs k f).time = s.time := rfl
@[simp] theorem State.ddr_onTabs (s : State) (k : Nat) (f : CoreTabs → CoreTabs) : (s.onTabs k f).ddr = s.ddr := rfl
@[simp] theorem State.cur_onTabs (s : State) (k : Nat) (f : CoreTabs → CoreTabs) : (s.onTabs k f).cur = s.cur := rfl
@[simp] theorem State.selected_onTabs (s : State) (k : Nat) (f : CoreTabs → CoreTabs) : (s.onTabs k f).selected = s.selected := rfl
@[simp] theorem State.agenda_onTabs (s : State) (k : Nat) (f : CoreTabs → CoreTabs) : (s.onTabs k f).agenda = s.agenda := rfl
@[simp] theorem State.turn_onTabs (s : State) (k : Nat) (f : CoreTabs → CoreTabs) : (s.onTabs k f).turn = s.turn := rfl
@[simp] theorem State.seq_onTabs (s : State) (k : Nat) (f : CoreTabs → CoreTabs) : (s.onTabs k f).seq = s.seq := rfl
@[simp] theorem State.mem_onMat (s : State) (k : Nat) (f : CoreMat → CoreMat) : (s.onMat k f).mem = s.mem := rfl
@[simp] theorem State.dies_onMat (s : State) (k : Nat) (f : CoreMat → CoreMat) : (s.onMat k f).dies = s.dies := rfl
@[simp] theorem State.tasks_onMat (s : State) (k : Nat) (f : CoreMat → CoreMat) : (s.onMat k f).tasks = s.tasks := rfl
@[simp] theorem State.io_onMat (s : State) (k : Nat) (f : CoreMat → CoreMat) : (s.onMat k f).io = s.io := rfl
@[simp] theorem State.ports_onMat (s : State) (k : Nat) (f : CoreMat → CoreMat) : (s.onMat k f).ports = s.ports := rfl
@[simp] theorem State.ctrl_onMat (s : State) (k : Nat) (f : CoreMat → CoreMat) : (s.onMat k f).ctrl = s.ctrl := rfl
@[simp] theorem State.time_onMat (s : State) (k : Nat) (f : CoreMat → CoreMat) : (s.onMat k f).time = s.time := rfl
@[simp] theorem State.ddr_onMat (s : State) (k : Nat) (f : CoreMat → CoreMat) : (s.onMat k f).ddr = s.ddr := rfl
@[simp] theorem State.cur_onMat (s : State) (k : Nat) (f : CoreMat → CoreMat) : (s.onMat k f).cur = s.cur := rfl
@[simp] theorem State.selected_onMat (s : State) (k : Nat) (f : CoreMat → CoreMat) : (s.onMat k f).selected = s.selected := rfl
@[simp] theorem State.agenda_onMat (s : State) (k : Nat) (f : CoreMat → CoreMat) : (s.onMat k f).agenda = s.agenda := rfl
@[simp] theorem State.turn_onMat (s : State) (k : Nat) (f : CoreMat → CoreMat) : (s.onMat k f).turn = s.turn := rfl
@[simp] theorem State.seq_onMat (s : State) (k : Nat) (f : CoreMat → CoreMat) : (s.onMat k f).seq = s.seq := rfl
@[simp] theorem State.mem_onCtl (s : State) (k : Nat) (f : CoreCtl → CoreCtl) : (s.onCtl k f).mem = s.mem := rfl
@[simp] theorem State.dies_onCtl (s : State) (k : Nat) (f : CoreCtl → CoreCtl) : (s.onCtl k f).dies = s.dies := rfl
@[simp] theorem State.tasks_onCtl (s : State) (k : Nat) (f : CoreCtl → CoreCtl) : (s.onCtl k f).tasks = s.tasks := rfl
@[simp] theorem State.io_onCtl (s : State) (k : Nat) (f : CoreCtl → CoreCtl) : (s.onCtl k f).io = s.io := rfl
@[simp] theorem State.ports_onCtl (s : State) (k : Nat) (f : CoreCtl → CoreCtl) : (s.onCtl k f).ports = s.ports := rfl
@[simp] theorem State.ctrl_onCtl (s : State) (k : Nat) (f : CoreCtl → CoreCtl) : (s.onCtl k f).ctrl = s.ctrl := rfl
@[simp] theorem State.time_onCtl (s : State) (k : Nat) (f : CoreCtl → CoreCtl) : (s.onCtl k f).time = s.time := rfl
@[simp] theorem State.ddr_onCtl (s : State) (k : Nat) (f : CoreCtl → CoreCtl) : (s.onCtl k f).ddr = s.ddr := rfl
@[simp] theorem State.cur_onCtl (s : State) (k : Nat) (f : CoreCtl → CoreCtl) : (s.onCtl k f).cur = s.cur := rfl
@[simp] theorem State.selected_onCtl (s : State) (k : Nat) (f : CoreCtl → CoreCtl) : (s.onCtl k f).selected = s.selected := rfl
@[simp] theorem State.agenda_onCtl (s : State) (k : Nat) (f : CoreCtl → CoreCtl) : (s.onCtl k f).agenda = s.agenda := rfl
@[simp] theorem State.turn_onCtl (s : State) (k : Nat) (f : CoreCtl → CoreCtl) : (s.onCtl k f).turn = s.turn := rfl
@[simp] theorem State.seq_onCtl (s : State) (k : Nat) (f : CoreCtl → CoreCtl) : (s.onCtl k f).seq = s.seq := rfl
@[simp] theorem State.mem_onTm (s : State) (f : Team → Team) : (s.onTm f).mem = s.mem := rfl
@[simp] theorem State.dies_onTm (s : State) (f : Team → Team) : (s.onTm f).dies = s.dies := rfl
@[simp] theorem State.tasks_onTm (s : State) (f : Team → Team) : (s.onTm f).tasks = s.tasks := rfl
@[simp] theorem State.io_onTm (s : State) (f : Team → Team) : (s.onTm f).io = s.io := rfl
@[simp] theorem State.ports_onTm (s : State) (f : Team → Team) : (s.onTm f).ports = s.ports := rfl
@[simp] theorem State.ctrl_onTm (s : State) (f : Team → Team) : (s.onTm f).ctrl = s.ctrl := rfl
@[simp] theorem State.time_onTm (s : State) (f : Team → Team) : (s.onTm f).time = s.time := rfl
@[simp] theorem State.ddr_onTm (s : State) (f : Team → Team) : (s.onTm f).ddr = s.ddr := rfl
@[simp] theorem State.cur_onTm (s : State) (f : Team → Team) : (s.onTm f).cur = s.cur := rfl
@[simp] theorem State.selected_onTm (s : State) (f : Team → Team) : (s.onTm f).selected = s.selected := rfl
@[simp] theorem State.agenda_onTm (s : State) (f : Team → Team) : (s.onTm f).agenda = s.agenda := rfl
@[simp] theorem State.turn_onTm (s : State) (f : Team → Team) : (s.onTm f).turn = s.turn := rfl
@[simp] theorem State.seq_onTm (s : State) (f : Team → Team) : (s.onTm f).seq = s.seq := rfl
@[simp] theorem State.mem_onGt (s : State) (f : Gatherer → Gatherer) : (s.onGt f).mem = s.mem := rfl
@[simp] theorem State.dies_onGt (s : State) (f : Gatherer → Gatherer) : (s.onGt f).dies = s.dies := rfl
@[simp] theorem State.tasks_onGt (s : State) (f : Gatherer → Gatherer) : (s.onGt f).tasks = s.tasks := rfl
@[simp] theorem State.io_onGt (s : State) (f : Gatherer → Gatherer) : (s.onGt f).io = s.io := rfl
@[simp] theorem State.ports_onGt (s : State) (f : Gatherer → Gatherer) : (s.onGt f).ports = s.ports := rfl
@[simp] theorem State.ctrl_onGt (s : State) (f : Gatherer → Gatherer) : (s.onGt f).ctrl = s.ctrl := rfl
@[simp] theorem State.time_onGt (s : State) (f : Gatherer → Gatherer) : (s.onGt f).time = s.time := rfl
@[simp] theorem State.ddr_onGt (s : State) (f : Gatherer → Gatherer) : (s.onGt f).ddr = s.ddr := rfl
@[simp] theorem State.cur_onGt (s : State) (f : Gatherer → Gatherer) : (s.onGt f).cur = s.cur := rfl
@[simp] theorem State.selected_onGt (s : State) (f : Gatherer → Gatherer) : (s.onGt f).selected = s.selected := rfl
@[simp] theorem State.agenda_onGt (s : State) (f : Gatherer → Gatherer) : (s.onGt f).agenda = s.agenda := rfl
@[simp] theorem State.turn_onGt (s : State) (f : Gatherer → Gatherer) : (s.onGt f).turn = s.turn := rfl
@[simp] theorem State.seq_onGt (s : State) (f : Gatherer → Gatherer) : (s.onGt f).seq = s.seq := rfl
@[simp] theorem State.cores_onMem (s : State) (f : Memory → Memory) : (s.onMem f).cores = s.cores := rfl
@[simp] theorem State.dies_onMem (s : State) (f : Memory → Memory) : (s.onMem f).dies = s.dies := rfl
@[simp] theorem State.tasks_onMem (s : State) (f : Memory → Memory) : (s.onMem f).tasks = s.tasks := rfl
@[simp] theorem State.io_onMem (s : State) (f : Memory → Memory) : (s.onMem f).io = s.io := rfl
@[simp] theorem State.ports_onMem (s : State) (f : Memory → Memory) : (s.onMem f).ports = s.ports := rfl
@[simp] theorem State.ctrl_onMem (s : State) (f : Memory → Memory) : (s.onMem f).ctrl = s.ctrl := rfl
@[simp] theorem State.time_onMem (s : State) (f : Memory → Memory) : (s.onMem f).time = s.time := rfl
@[simp] theorem State.ddr_onMem (s : State) (f : Memory → Memory) : (s.onMem f).ddr = s.ddr := rfl
@[simp] theorem State.cur_onMem (s : State) (f : Memory → Memory) : (s.onMem f).cur = s.cur := rfl
@[simp] theorem State.selected_onMem (s : State) (f : Memory → Memory) : (s.onMem f).selected = s.selected := rfl
@[simp] theorem State.agenda_onMem (s : State) (f : Memory → Memory) : (s.onMem f).agenda = s.agenda := rfl
@[simp] theorem State.turn_onMem (s : State) (f : Memory → Memory) : (s.onMem f).turn = s.turn := rfl
@[simp] theorem State.seq_onMem (s : State) (f : Memory → Memory) : (s.onMem f).seq = s.seq := rfl

/-! Cores and dies after an update. -/

theorem State.core_setCore (s : State) (k j : Nat) (c : Core) : (s.setCore k c).core j = if j = k then c else s.core j :=
  Tbl.get_set ..

@[simp] theorem State.core_setCore_same (s : State) (k : Nat) (c : Core) : (s.setCore k c).core k = c := by
  simp [State.core_setCore]

theorem State.core_onCore (s : State) (k j : Nat) (f : Core → Core) :
    (s.onCore k f).core j = if j = k then f (s.core k) else s.core j := State.core_setCore ..

@[simp] theorem State.core_onCore_same (s : State) (k : Nat) (f : Core → Core) : (s.onCore k f).core k = f (s.core k) := by
  simp [State.core_onCore]

theorem State.die_setDie (s : State) (d j : Nat) (x : Die) : (s.setDie d x).die j = if j = d then x else s.die j := Tbl.get_set ..

theorem State.die_onDie (s : State) (d j : Nat) (f : Die → Die) :
    (s.onDie d f).die j = if j = d then f (s.die d) else s.die j := State.die_setDie ..

@[simp] theorem State.die_onDie_same (s : State) (d : Nat) (f : Die → Die) : (s.onDie d f).die d = f (s.die d) := by
  simp [State.die_onDie]

@[simp] theorem State.core_setDie (s : State) (d j : Nat) (x : Die) : (s.setDie d x).core j = s.core j := rfl
@[simp] theorem State.core_onDie (s : State) (d j : Nat) (f : Die → Die) : (s.onDie d f).core j = s.core j := rfl
@[simp] theorem State.die_setCore (s : State) (k j : Nat) (c : Core) : (s.setCore k c).die j = s.die j := rfl
@[simp] theorem State.die_onCore (s : State) (k j : Nat) (f : Core → Core) : (s.onCore k f).die j = s.die j := rfl
@[simp] theorem State.die_onTeam (s : State) (k i j : Nat) (f : Team → Team) : (s.onTeam k i f).die j = s.die j := rfl
@[simp] theorem State.die_onTm (s : State) (j : Nat) (f : Team → Team) : (s.onTm f).die j = s.die j := rfl
@[simp] theorem State.core_onMem (s : State) (j : Nat) (f : Memory → Memory) : (s.onMem f).core j = s.core j := rfl
@[simp] theorem State.die_onMem (s : State) (j : Nat) (f : Memory → Memory) : (s.onMem f).die j = s.die j := rfl

/-! Teams after an update. -/

theorem Core.team_setTeam (c : Core) (i j : Nat) (t : Team) : (c.setTeam i t).team j = if j = i then t else c.team j := Tbl.get_set ..

theorem State.team_onTeam (s : State) (k i k' i' : Nat) (f : Team → Team) :
    (s.onTeam k i f).team k' i' = if k' = k ∧ i' = i then f (s.team k i) else s.team k' i' := by
  simp only [State.onTeam, State.setTeam, State.team, State.core_onCore]
  split_ifs <;> simp_all [Core.team_setTeam]

@[simp] theorem State.team_onTeam_same (s : State) (k i : Nat) (f : Team → Team) : (s.onTeam k i f).team k i = f (s.team k i) := by
  simp [State.team_onTeam]

theorem State.core_onTeam (s : State) (k i j : Nat) (f : Team → Team) :
    (s.onTeam k i f).core j = if j = k then (s.core k).setTeam i (f (s.team k i)) else s.core j := State.core_onCore ..

@[simp] theorem State.gath_onTeam (s : State) (k i k' g : Nat) (f : Team → Team) : (s.onTeam k i f).gath k' g = s.gath k' g := by
  simp only [State.gath, State.core_onTeam]
  split_ifs <;> simp_all [Core.setTeam]

/-! The issuing agent after an update of its team. -/

@[simp] theorem State.ck_onTm (s : State) (f : Team → Team) : (s.onTm f).ck = s.ck := rfl
@[simp] theorem State.isGath_onTm (s : State) (f : Team → Team) : (s.onTm f).isGath = s.isGath := rfl
@[simp] theorem State.gi_onTm (s : State) (f : Team → Team) : (s.onTm f).gi = s.gi := rfl
@[simp] theorem State.slot_onTm (s : State) (f : Team → Team) : (s.onTm f).slot = s.slot := by
  unfold State.slot; rw [State.cur_onTm]; cases s.cur <;> simp [State.onTm]

@[simp] theorem State.tm_onTm (s : State) (f : Team → Team) : (s.onTm f).tm = f s.tm := by
  simp only [State.tm, State.ck_onTm, State.slot_onTm]; simp [State.onTm]

@[simp] theorem State.gt_onTm (s : State) (f : Team → Team) : (s.onTm f).gt = s.gt := by simp [State.gt, State.onTm, State.gi, State.ck]
@[simp] theorem State.cyc_onTm (s : State) (f : Team → Team) : (s.onTm f).cyc = s.cyc := rfl

/-- Two updates of the team are one. -/
theorem State.cr_onTm (s : State) (f : Team → Team) : (s.onTm f).cr = s.cr.setTeam s.slot (f s.tm) := by
  simp only [State.cr, State.ck_onTm]; simp [State.onTm, State.core_onTeam, State.tm]

end Sys2Proof.Machine
end

