-- ==== Sys2Proof/Laws/Issue.lean ====
section
/-! SUPPORT. What the issue of an instruction does around its own effect: the entry in flight, the flag, the PC. -/

namespace Sys2Proof.Machine

theorem Team.signal_cases (t : Team) (k : Nat) (pc : Word) :
    t.signal k pc = { t with regs := { t.regs with flags := (t.signal k pc).regs.flags } } := by
  unfold Team.signal; split <;> rfl

@[simp] theorem Team.signal_path (t : Team) (k : Nat) (pc : Word) : (t.signal k pc).path = t.path := by rw [Team.signal_cases]
@[simp] theorem Team.signal_fly (t : Team) (k : Nat) (pc : Word) : (t.signal k pc).fly = t.fly := by rw [Team.signal_cases]
@[simp] theorem Team.signal_haz (t : Team) (k : Nat) (pc : Word) : (t.signal k pc).haz = t.haz := by rw [Team.signal_cases]
@[simp] theorem Team.signal_flt (t : Team) (k : Nat) (pc : Word) : (t.signal k pc).flt = t.flt := by rw [Team.signal_cases]
@[simp] theorem Team.signal_id (t : Team) (k : Nat) (pc : Word) : (t.signal k pc).id = t.id := by rw [Team.signal_cases]
@[simp] theorem Team.signal_st (t : Team) (k : Nat) (pc : Word) : (t.signal k pc).st = t.st := by rw [Team.signal_cases]
@[simp] theorem Team.signal_wait (t : Team) (k : Nat) (pc : Word) : (t.signal k pc).wait = t.wait := by rw [Team.signal_cases]
@[simp] theorem Team.signal_park (t : Team) (k : Nat) (pc : Word) : (t.signal k pc).park = t.park := by rw [Team.signal_cases]
@[simp] theorem Team.signal_nextId (t : Team) (k : Nat) (pc : Word) : (t.signal k pc).nextId = t.nextId := by rw [Team.signal_cases]
@[simp] theorem Team.signal_s (t : Team) (k : Nat) (pc : Word) : (t.signal k pc).regs.s = t.regs.s := by rw [Team.signal_cases]
@[simp] theorem Team.signal_v (t : Team) (k : Nat) (pc : Word) : (t.signal k pc).regs.v = t.regs.v := by rw [Team.signal_cases]
@[simp] theorem Team.signal_p (t : Team) (k : Nat) (pc : Word) : (t.signal k pc).regs.p = t.regs.p := by rw [Team.signal_cases]
@[simp] theorem Team.signal_c (t : Team) (k : Nat) (pc : Word) : (t.signal k pc).regs.c = t.regs.c := by rw [Team.signal_cases]
@[simp] theorem Team.signal_tstat (t : Team) (k : Nat) (pc : Word) : (t.signal k pc).regs.tstat = t.regs.tstat := by
  rw [Team.signal_cases]
@[simp] theorem Team.signal_rpm (t : Team) (k : Nat) (pc : Word) : (t.signal k pc).regs.rpm = t.regs.rpm := by
  rw [Team.signal_cases]
@[simp] theorem Team.signal_sig (t : Team) (k : Nat) (pc : Word) : (t.signal k pc).regs.sig = t.regs.sig := by
  rw [Team.signal_cases]
@[simp] theorem Team.signal_regions (t : Team) (k : Nat) (pc : Word) : (t.signal k pc).regs.regions = t.regs.regions := by
  rw [Team.signal_cases]
@[simp] theorem Team.signal_ycnt (t : Team) (k : Nat) (pc : Word) : (t.signal k pc).regs.ycnt = t.regs.ycnt := by
  rw [Team.signal_cases]

/-- What `canIssue` says, part by part. -/
theorem canIssue_iff (i : Instr) (s : State) : canIssue i s = true ↔
    s.isGath = false ∧ s.tm.st = 1 ∧ s.tm.park = false ∧ s.tm.flt.replay = false ∧ (instrInfo i).legal s.tm.id.budget = true ∧
      roleOk s.tm.id.role (instrInfo i).opc = true ∧ s.unitFree i = true := by
  simp [canIssue, and_assoc]

theorem State.cur_of_isGath {s : State} (h : s.isGath = false) : ∃ k j, s.cur = .team k j := by
  unfold State.isGath at h; cases hc : s.cur with
  | team k j => exact ⟨k, j, rfl⟩
  | gath k g => simp [hc] at h

theorem State.cur_eq_of_isGath {s : State} (h : s.isGath = false) : s.cur = .team s.ck s.slot := by
  obtain ⟨k, j, hc⟩ := State.cur_of_isGath h; simp [State.ck, State.slot, hc]

/-- SIG of a legal instruction is at most 12 (R50, R103). -/
theorem Info.legal_sig {n : Info} {b : Nat} (h : n.legal b = true) : n.head.sig.toNat ≤ 12 := by
  simp [Info.legal] at h; exact h.1.1.2

/-- The state at the start of an issue is the state with the team opened. -/
theorem State.openIssue_eq {i : Instr} {s : State} (h : canIssue i s = true) :
    s.openIssue (instrInfo i) = s.onTm (fun t => t.opened (instrInfo i) (flagOf i) (dueOf i s) s.ipc) := by
  obtain ⟨-, -, -, -, hl, -⟩ := (canIssue_iff i s).1 h
  have := Info.legal_sig hl
  simp only [State.openIssue, flagOf, dueOf, this, if_true] <;> rfl

/-- An instruction without a fault of its own: the issue ends with what its body made. -/
theorem State.issue_ok {i : Instr} {s : State} {uniform ctl : Bool} {body : Body} {t : State} (h : canIssue i s = true)
    (hu : uniform = true → s.servedBy i ≠ 0) (hb : body (s.openIssue (instrInfo i)) = .ok t) :
    s.issue i uniform ctl body = t.closeIssue (instrInfo i) s.ipc ctl false s.tm.flt.atIssue := by
  obtain ⟨hg, -, -, hr, hl, ho, hx⟩ := (canIssue_iff i s).1 h
  obtain ⟨k, j, hc⟩ := State.cur_of_isGath hg
  have hrole : (s.openIssue (instrInfo i)).tm.id = s.tm.id := by
    rw [State.openIssue_eq h]; simp [Team.opened]
  have hu' : ¬ (uniform = true ∧ s.servedBy i = 0) := fun h => hu h.1 h.2
  rw [State.servedBy] at hu'
  simp only [State.issue, hx, hc, hrole, hl, ho, hb, hr, Bool.and_eq_true, beq_iff_eq, hu', if_false, Bool.not_true, Bool.or_self, Bool.false_eq_true]

/-- An instruction that is not eligible does nothing (R30). -/
theorem State.issue_waits {i : Instr} {s : State} {uniform ctl : Bool} {body : Body} (h : s.unitFree i = false) :
    s.issue i uniform ctl body = s := by
  simp [State.issue, h]

/-- An instruction whose body faults takes the fault (R381). -/
theorem State.issue_fault {i : Instr} {s : State} {uniform ctl : Bool} {body : Body} {fr : FaultReq} (h : canIssue i s = true)
    (hu : uniform = true → s.servedBy i ≠ 0) (hb : body (s.openIssue (instrInfo i)) = .error fr) (hf : fr.code ≠ 0x1FF)
    (hw : s.tm.flt.win = none) :
    s.issue i uniform ctl body = (s.openIssue (instrInfo i)).takeFault { fr with rpm := s.servedBy i, word := wordOf i } ctl := by
  obtain ⟨hg, -, -, hr, hl, ho, hx⟩ := (canIssue_iff i s).1 h
  obtain ⟨k, j, hc⟩ := State.cur_of_isGath hg
  have hrole : (s.openIssue (instrInfo i)).tm.id = s.tm.id := by
    rw [State.openIssue_eq h]; simp [Team.opened]
  have hu' : ¬ (uniform = true ∧ s.servedBy i = 0) := fun h => hu h.1 h.2
  rw [State.servedBy] at hu' ⊢
  simp only [State.issue, hx, hc, hrole, hl, ho, hb, hf, hw, Bool.and_eq_true, beq_iff_eq, hu', if_false, Bool.not_true, Bool.or_self,
    Bool.false_eq_true, Option.isSome_none, or_self]

/-! The frame: nothing but the issuing team. -/

theorem onlyTeam_refl (s : State) : onlyTeam s s := ⟨rfl, fun _ _ => rfl, rfl, fun _ _ => rfl⟩

theorem onlyTeam_onTm (s : State) (f : Team → Team) : onlyTeam s (s.onTm f) := by
  refine ⟨rfl, fun k hk => ?_, ?_, fun j hj => ?_⟩
  · simp [State.onTm, State.core_onTeam, hk]
  · rw [State.cr_onTm]; rfl
  · rw [State.cr_onTm, Core.team_setTeam]; simp [hj]

theorem onlyTeam_cur {s t : State} (h : onlyTeam s t) : t.cur = s.cur := by
  have := congrArg State.cur h.1; simpa using this

theorem onlyTeam_ck {s t : State} (h : onlyTeam s t) : t.ck = s.ck := by simp [State.ck, onlyTeam_cur h]

theorem onlyTeam_slot {s t : State} (h : onlyTeam s t) (hg : s.isGath = false) : t.slot = s.slot := by
  obtain ⟨k, j, hc⟩ := State.cur_of_isGath hg
  simp [State.slot, onlyTeam_cur h, hc]

theorem onlyTeam_isGath {s t : State} (h : onlyTeam s t) : t.isGath = s.isGath := by simp [State.isGath, onlyTeam_cur h]

theorem onlyTeam_trans {s t u : State} (hg : s.isGath = false) (h : onlyTeam s t) (h' : onlyTeam t u) : onlyTeam s u := by
  obtain ⟨a, b, c, d⟩ := h
  have hk := onlyTeam_ck ⟨a, b, c, d⟩
  have hs := onlyTeam_slot ⟨a, b, c, d⟩ hg
  obtain ⟨a', b', c', d'⟩ := h'
  refine ⟨?_, fun k hk' => ?_, ?_, fun j hj => ?_⟩
  · rw [← a, ← a']
  · rw [b' k (hk ▸ hk'), b k hk']
  · rw [← c, ← c']
  · rw [d' j (hs ▸ hj), d j hj]

/-- The team at the end of an issue without a fault. -/
def Team.closed (t : Team) (n : Info) (ipc : Word) (ctl : Bool) : Team :=
  Team.endIssue { t with path := loopBack ipc (if ctl then t.path else { t.path with pc := nextPc ipc }) } n false

/-- The team is not in a wait and does not park. -/
def Team.moves (t : Team) : Prop := (t.st == 2 && t.wait.isSome || t.park) = false

theorem State.onPath_eq (s : State) (f : TeamPath → TeamPath) : s.onPath f = s.onTm (fun t => { t with path := f t.path }) := rfl
theorem State.onRegs_eq (s : State) (f : TeamRegs → TeamRegs) : s.onRegs f = s.onTm (fun t => { t with regs := f t.regs }) := rfl

theorem State.setPc_team {s : State} (hg : s.isGath = false) (w : Word) :
    s.setPc w = s.onTm (fun t => { t with path := { t.path with pc := w } }) := by
  obtain ⟨k, j, hc⟩ := State.cur_of_isGath hg; simp [State.setPc, hc, State.onPath_eq]

@[simp] theorem State.setPc_isGath (s : State) (w : Word) : (s.setPc w).isGath = s.isGath := by
  cases hg : s.isGath
  · rw [State.setPc_team hg]; simp [hg]
  · unfold State.setPc; split
    · simp_all [State.isGath]
    · simp [State.isGath] at hg ⊢; exact hg

/-- The frame holds through one more update of the team. -/
theorem onlyTeam.onTm {s t : State} (hg : s.isGath = false) (h : onlyTeam s t) (f : Team → Team) : onlyTeam s (t.onTm f) :=
  onlyTeam_trans hg h (onlyTeam_onTm t f)

theorem onlyTeam.setPc {s t : State} (hg : s.isGath = false) (h : onlyTeam s t) (w : Word) : onlyTeam s (t.setPc w) := by
  rw [State.setPc_team (by rw [onlyTeam_isGath h, hg])]; exact h.onTm hg _

/-- A path that has not just taken a backward branch to its threshold meets the loop-back (R35, R121). -/
theorem State.settlePath_eq {s : State} {n : Info} {ipc : Word} (hb : branchOpc n.opc = false) :
    s.settlePath n ipc = s.onPath (loopBack ipc) := by simp [State.settlePath, hb]

theorem State.closeIssue_spec {s : State} {n : Info} {ipc : Word} {ctl a : Bool} (hg : s.isGath = false) (hm : s.tm.moves)
    (hb : branchOpc n.opc = false) :
    onlyTeam s (s.closeIssue n ipc ctl false a) ∧ (s.closeIssue n ipc ctl false a).tm = s.tm.closed n ipc ctl := by
  unfold Team.moves at hm
  have e : s.closeIssue n ipc ctl false a =
      ((if ctl then s else s.setPc (nextPc ipc)).onPath (loopBack ipc)).onTm (·.endIssue n false) := by
    simp only [State.closeIssue, Bool.false_and, Bool.or_false, hm, State.settlePath_eq hb]
    cases ctl <;> simp [State.setPc_team hg]
  rw [e]
  cases ctl
  · simp only [Bool.false_eq_true, if_false]
    exact ⟨(((onlyTeam_refl s).setPc hg _).onTm hg _).onTm hg _, by simp [State.onPath_eq, State.setPc_team hg, Team.closed]⟩
  · simp only [if_true]
    exact ⟨((onlyTeam_refl s).onTm hg _).onTm hg _, by simp [State.onPath_eq, Team.closed]⟩

/-! Reads after an update of the team that leaves what they read. -/


theorem State.readCyc_onTm {s : State} {f : Team → Team} (hm : (f s.tm).path.mask = s.tm.path.mask) (l : Nat) :
    (s.onTm f).readCyc l = s.readCyc l := by
  simp [State.readCyc, hm]

theorem State.rs_onTm {s : State} {f : Team → Team} (h : (f s.tm).regs.s = s.tm.regs.s) (hh : (f s.tm).haz = s.tm.haz) (r : Nat) :
    (s.onTm f).rs r = s.rs r := by
  simp [State.rs, h, hh]

theorem State.rvAt_onTm {s : State} {f : Team → Team} (h : (f s.tm).regs.v = s.tm.regs.v) (hh : (f s.tm).haz = s.tm.haz) (c r l : Nat) :
    (s.onTm f).rvAt c r l = s.rvAt c r l := by
  simp [State.rvAt, h, hh]

theorem State.rpAt_onTm {s : State} {f : Team → Team} (h : (f s.tm).regs.p = s.tm.regs.p) (hh : (f s.tm).haz = s.tm.haz) (c p l : Nat) :
    (s.onTm f).rpAt c p l = s.rpAt c p l := by
  simp only [State.rpAt, State.tm_onTm, State.seq_onTm, h, hh]

theorem State.rcAt_onTm {s : State} {f : Team → Team} (h : (f s.tm).regs.c = s.tm.regs.c) (hh : (f s.tm).haz = s.tm.haz) (n c l : Nat) :
    (s.onTm f).rcAt n c l = s.rcAt n c l := by
  simp [State.rcAt, h, hh]

theorem State.rv_onTm {s : State} {f : Team → Team} (h : (f s.tm).regs.v = s.tm.regs.v) (hh : (f s.tm).haz = s.tm.haz)
    (hm : (f s.tm).path.mask = s.tm.path.mask) (r l : Nat) : (s.onTm f).rv r l = s.rv r l := by
  simp [State.rv, State.rvAt_onTm h hh, State.readCyc_onTm hm]

theorem State.rp_onTm {s : State} {f : Team → Team} (h : (f s.tm).regs.p = s.tm.regs.p) (hh : (f s.tm).haz = s.tm.haz)
    (hm : (f s.tm).path.mask = s.tm.path.mask) (p l : Nat) : (s.onTm f).rp p l = s.rp p l := by
  simp [State.rp, State.rpAt_onTm h hh, State.readCyc_onTm hm]

theorem State.rc_onTm {s : State} {f : Team → Team} (h : (f s.tm).regs.c = s.tm.regs.c) (hh : (f s.tm).haz = s.tm.haz)
    (hm : (f s.tm).path.mask = s.tm.path.mask) (c l : Nat) : (s.onTm f).rc c l = s.rc c l := by
  simp [State.rc, State.rcAt_onTm h hh, State.readCyc_onTm hm]

theorem State.rvNow_onTm {s : State} {f : Team → Team} (h : (f s.tm).regs.v = s.tm.regs.v) (hh : (f s.tm).haz = s.tm.haz) (r l : Nat) :
    (s.onTm f).rvNow r l = s.rvNow r l := by
  simp [State.rvNow, State.rvAt_onTm h hh]

theorem State.rpNow_onTm {s : State} {f : Team → Team} (h : (f s.tm).regs.p = s.tm.regs.p) (hh : (f s.tm).haz = s.tm.haz) (p l : Nat) :
    (s.onTm f).rpNow p l = s.rpNow p l := by
  simp [State.rpNow, State.rpAt_onTm h hh]

theorem State.nl_onTm {s : State} {f : Team → Team} (h : (f s.tm).id = s.tm.id) : (s.onTm f).nl = s.nl := by
  simp [State.nl, h]

theorem State.active_onTm {s : State} {f : Team → Team} (h : (f s.tm).path.mask = s.tm.path.mask) : (s.onTm f).active = s.active := by
  simp [State.active, h]

theorem State.servedAs_onTm {s : State} {f : Team → Team} (hi : (f s.tm).id = s.tm.id) (hm : (f s.tm).path.mask = s.tm.path.mask)
    (hr : (f s.tm).flt = s.tm.flt) (hp : (f s.tm).regs.rpm = s.tm.regs.rpm) (p : Nat → Nat → Bool) (g : BitVec 4) :
    (s.onTm f).servedAs p g = s.servedAs p g := by
  simp [State.servedAs, hr, hp, State.active_onTm hm, State.nl_onTm hi]

theorem State.served_onTm {s : State} {f : Team → Team} (h : (f s.tm).regs.p = s.tm.regs.p) (hh : (f s.tm).haz = s.tm.haz)
    (hi : (f s.tm).id = s.tm.id) (hm : (f s.tm).path.mask = s.tm.path.mask) (hr : (f s.tm).flt = s.tm.flt)
    (hp : (f s.tm).regs.rpm = s.tm.regs.rpm) (g : BitVec 4) :
    (s.onTm f).served g = s.served g ∧ (s.onTm f).servedNow g = s.servedNow g := by
  constructor
  · rw [State.served, State.servedAs_onTm hi hm hr hp]; simp only [State.rp_onTm h hh hm]; rfl
  · rw [State.servedNow, State.servedAs_onTm hi hm hr hp]; simp only [State.rpNow_onTm h hh]; rfl

theorem State.ipc_onTm {s : State} {f : Team → Team} (hr : (f s.tm).flt = s.tm.flt) (hp : (f s.tm).path.pc = s.tm.path.pc) :
    (s.onTm f).ipc = s.ipc := by
  simp [State.ipc, hr, hp]

/-! Reads at the start of an issue are reads of the state before. -/

section Opened
variable {i : Instr} {s : State} (h : canIssue i s = true)
include h

theorem State.openIssue_tm : (s.openIssue (instrInfo i)).tm = s.tm.opened (instrInfo i) (flagOf i) (dueOf i s) s.ipc := by
  rw [State.openIssue_eq h, State.tm_onTm]
theorem State.openIssue_rs (r : Nat) : (s.openIssue (instrInfo i)).rs r = s.rs r := by
  rw [State.openIssue_eq h]; exact State.rs_onTm (by simp [Team.opened]) (by simp [Team.opened]) r
theorem State.openIssue_rv (r l : Nat) : (s.openIssue (instrInfo i)).rv r l = s.rv r l := by
  rw [State.openIssue_eq h]; exact State.rv_onTm (by simp [Team.opened]) (by simp [Team.opened]) (by simp [Team.opened]) r l
theorem State.openIssue_rp (p l : Nat) : (s.openIssue (instrInfo i)).rp p l = s.rp p l := by
  rw [State.openIssue_eq h]; exact State.rp_onTm (by simp [Team.opened]) (by simp [Team.opened]) (by simp [Team.opened]) p l
theorem State.openIssue_rc (c l : Nat) : (s.openIssue (instrInfo i)).rc c l = s.rc c l := by
  rw [State.openIssue_eq h]; exact State.rc_onTm (by simp [Team.opened]) (by simp [Team.opened]) (by simp [Team.opened]) c l
theorem State.openIssue_nl : (s.openIssue (instrInfo i)).nl = s.nl := by
  rw [State.openIssue_eq h]; exact State.nl_onTm (by simp [Team.opened])
theorem State.openIssue_active : (s.openIssue (instrInfo i)).active = s.active := by
  rw [State.openIssue_eq h]; exact State.active_onTm (by simp [Team.opened])
theorem State.openIssue_servedBoth (g : BitVec 4) : (s.openIssue (instrInfo i)).served g = s.served g ∧
    (s.openIssue (instrInfo i)).servedNow g = s.servedNow g := by
  rw [State.openIssue_eq h]
  exact State.served_onTm (by simp [Team.opened]) (by simp [Team.opened]) (by simp [Team.opened]) (by simp [Team.opened])
    (by simp [Team.opened]) (by simp [Team.opened]) g
theorem State.openIssue_served (g : BitVec 4) : (s.openIssue (instrInfo i)).served g = s.served g := (State.openIssue_servedBoth h g).1
theorem State.openIssue_servedNow (g : BitVec 4) : (s.openIssue (instrInfo i)).servedNow g = s.servedNow g :=
  (State.openIssue_servedBoth h g).2
theorem State.openIssue_lanes : (if (instrInfo i).sweep then (s.openIssue (instrInfo i)).lanes (instrInfo i).head.guard
    else (s.openIssue (instrInfo i)).lanesNow (instrInfo i).head.guard) = s.lanesBy i := by
  simp only [State.lanes, State.lanesNow, State.openIssue_served h, State.openIssue_servedNow h, State.openIssue_nl h, State.lanesBy,
    State.servedBy]
  split <;> rfl
theorem State.openIssue_ipc : (s.openIssue (instrInfo i)).ipc = s.ipc := by
  rw [State.openIssue_eq h]; exact State.ipc_onTm (by simp [Team.opened]) (by simp [Team.opened])
theorem State.openIssue_isGath : (s.openIssue (instrInfo i)).isGath = false := by
  rw [State.openIssue_eq h]; simpa using ((canIssue_iff i s).1 h).1
theorem State.openIssue_only : onlyTeam s (s.openIssue (instrInfo i)) := by
  rw [State.openIssue_eq h]; exact onlyTeam_onTm s _

/-- The end of an issue whose body changed nothing but the team and left it moving: the frame and the team. -/
theorem State.issue_spec {uniform ctl : Bool} {body : Body} {t : State} (hu : uniform = true → s.servedBy i ≠ 0)
    (hb : body (s.openIssue (instrInfo i)) = .ok t) (ht : onlyTeam (s.openIssue (instrInfo i)) t) (hm : t.tm.moves)
    (hn : branchOpc (instrInfo i).opc = false) :
    onlyTeam s (s.issue i uniform ctl body) ∧ (s.issue i uniform ctl body).tm = t.tm.closed (instrInfo i) s.ipc ctl := by
  have hg := ((canIssue_iff i s).1 h).1
  have ho := onlyTeam_trans hg (State.openIssue_only h) ht
  have hg' : t.isGath = false := by rw [onlyTeam_isGath ho, hg]
  rw [State.issue_ok h hu hb]
  obtain ⟨a, b⟩ := State.closeIssue_spec (n := instrInfo i) (ipc := s.ipc) (ctl := ctl) (a := s.tm.flt.atIssue) hg' hm hn
  exact ⟨onlyTeam_trans hg ho a, b⟩

end Opened

end Sys2Proof.Machine
end

