-- ==== Sys2Proof/Laws/Memory.lean ====
section
/-! SUPPORT. Laws of memory: every operation on it keeps its canonical form, a byte written reads as written, and every other byte reads
as before (10 R230, R233). -/

namespace Sys2Proof.Machine

theorem Memory.wf_iff (m : Memory) : m.wf = true ↔ Tbl.wf 0 m.bytes = true ∧ Tbl.wf false m.bad = true := by
  simp [Memory.wf]

/-- The memory after reset is in canonical form. -/
theorem reset_mem_wf : State.reset.mem.wf = true := by decide

theorem putBytes_wf (bs : List Byte) (t : Tbl Byte) (pa : Nat) (w : Tbl.wf 0 t = true) : Tbl.wf 0 (putBytes t pa bs) = true := by
  induction bs generalizing t pa with
  | nil => exact w
  | cons b bs ih => exact ih _ _ (Tbl.wf_set 0 t pa b w)

theorem clearBad_wf (gs : List Nat) (t : Tbl Bool) (w : Tbl.wf false t = true) :
    Tbl.wf false (gs.foldl (fun t g => Tbl.set false t g false) t) = true := by
  induction gs generalizing t with
  | nil => exact w
  | cons g gs ih => exact ih _ (Tbl.wf_set false t g false w)

theorem Memory.write_wf (m : Memory) (pa : Nat) (bs : List Byte) (w : m.wf = true) : (m.write pa bs).wf = true := by
  rw [Memory.wf_iff] at w ⊢
  exact ⟨putBytes_wf _ _ _ w.1, clearBad_wf _ _ w.2⟩

theorem Memory.writeLe_wf (m : Memory) (pa n x : Nat) (w : m.wf = true) : (m.writeLe pa n x).wf = true := Memory.write_wf m pa _ w

theorem Memory.spoil_wf (m : Memory) (pa : Nat) (w : m.wf = true) : (m.spoil pa).wf = true := by
  rw [Memory.wf_iff] at w ⊢
  exact ⟨w.1, Tbl.wf_set false m.bad _ true w.2⟩

theorem Memory.place_wf (m : Memory) (word : Word) (w : m.wf = true) : (m.place word).wf = true :=
  Memory.writeLe_wf _ _ _ _ (Memory.writeLe_wf _ _ _ _ (Memory.writeLe_wf _ _ _ _ (Memory.writeLe_wf _ _ _ _ (Memory.writeLe_wf _ _ _ _ w))))

theorem Memory.clear_wf (m : Memory) (lo hi : Nat) (w : m.wf = true) :
    ({ bytes := Tbl.clear lo hi m.bytes, bad := Tbl.clear lo hi m.bad } : Memory).wf = true := by
  rw [Memory.wf_iff] at w ⊢
  exact ⟨Tbl.wf_clear 0 lo hi _ w.1, Tbl.wf_clear false lo hi _ w.2⟩

/-- What STANDBY leaves of memory (R427): nothing of HBM and of the scratchpads. -/
theorem standby_mem_wf (s : State) (w : s.mem.wf = true) : s.standby.mem.wf = true := by
  rw [Memory.wf_iff] at w ⊢
  exact ⟨Tbl.wf_clear 0 _ _ _ (Tbl.wf_clear 0 _ _ _ w.1), Tbl.wf_clear false _ _ _ (Tbl.wf_clear false _ _ _ w.2)⟩

/-- One byte set, as the stores of lanes and engines set it. -/
theorem Memory.setByte_wf (m : Memory) (pa : Nat) (x : Byte) (w : m.wf = true) :
    ({ m with bytes := Tbl.set 0 m.bytes pa x } : Memory).wf = true := by
  rw [Memory.wf_iff] at w ⊢
  exact ⟨Tbl.wf_set 0 m.bytes pa x w.1, w.2⟩

/-- Granules made correct, as whole writes make them (R233). -/
theorem Memory.clearBad_wf (m : Memory) (gs : List Nat) (w : m.wf = true) :
    ({ m with bad := gs.foldl (fun t g => Tbl.set false t g false) m.bad } : Memory).wf = true := by
  rw [Memory.wf_iff] at w ⊢
  exact ⟨w.1, Machine.clearBad_wf gs _ w.2⟩

/-- A byte after a run of bytes was put at `pa`. -/
theorem putBytes_get (bs : List Byte) (t : Tbl Byte) (pa a : Nat) :
    Tbl.get 0 (putBytes t pa bs) a = if pa ≤ a ∧ a < pa + bs.length then bs.getD (a - pa) 0 else Tbl.get 0 t a := by
  induction bs generalizing t pa with
  | nil => simp [putBytes]
  | cons b bs ih =>
    simp only [putBytes, ih, Tbl.get_set, List.length_cons]
    by_cases h : a = pa
    · subst h; simp
    · by_cases g : pa + 1 ≤ a ∧ a < pa + 1 + bs.length
      · have e : a - pa = (a - (pa + 1)) + 1 := by omega
        rw [if_pos g, if_pos (by omega), e, List.getD_cons_succ]
      · rw [if_neg g, if_neg h, if_neg (by omega)]

/-- Reading a byte after a write: the byte written, or the byte as before. -/
theorem Memory.byte_write (m : Memory) (pa : Nat) (bs : List Byte) (a : Nat) :
    (m.write pa bs).byte a = if pa ≤ a ∧ a < pa + bs.length then bs.getD (a - pa) 0 else m.byte a := putBytes_get bs m.bytes pa a

theorem Memory.byte_write_out (m : Memory) (pa : Nat) (bs : List Byte) (a : Nat) (h : a < pa ∨ pa + bs.length ≤ a) :
    (m.write pa bs).byte a = m.byte a := by
  rw [Memory.byte_write, if_neg (by omega)]

@[simp] theorem leBytes_length (n x : Nat) : (leBytes n x).length = n := by simp [leBytes]

@[simp] theorem Memory.byte_spoil (m : Memory) (pa a : Nat) : (m.spoil pa).byte a = m.byte a := rfl

end Sys2Proof.Machine
end

