-- ==== Sys2Proof/Laws/Regs.lean ====
section
/-! SUPPORT. What one register write or status update does to the team. -/

namespace Sys2Proof.Machine

/-- The entry at the head of a list in flight takes status bits. -/
def addStat (bits : Nat) : List InFlight → List InFlight
  | [] => []
  | f :: fs => { f with stat := f.stat ||| BitVec.ofNat 32 bits } :: fs

/-- Status bits of the issuing instruction wait at its entry (R55). -/
theorem State.stat_spec {s : State} (hg : s.isGath = false) (bits : Nat) (hf : s.tm.fly ≠ []) :
    onlyTeam s (s.stat bits) ∧ (s.stat bits).tm = { s.tm with fly := addStat bits s.tm.fly } := by
  obtain ⟨k, j, hc⟩ := State.cur_of_isGath hg
  unfold State.stat State.orStat
  split
  · rename_i h0
    refine ⟨onlyTeam_refl s, ?_⟩
    cases hfl : s.tm.fly with
    | nil => exact absurd hfl hf
    | cons f fs => simp [addStat, h0, ← hfl]
  · rw [hc]
    refine ⟨onlyTeam_onTm s _, ?_⟩
    simp only [State.tm_onTm]
    cases hfl : s.tm.fly with
    | nil => exact absurd hfl hf
    | cons f fs => simp [addStat]

/-- A scalar write (R45, R90, R91): s0 discards; where no variable-latency write is pending the value is the one written. -/
theorem State.ws_spec {s : State} (hg : s.isGath = false) (d : Nat) (w : Word)
    (hs : s.tm.varPending s.tm.due.2 (.s d) 0 = false) :
    onlyTeam s (s.ws d w) ∧ ∃ haz, (s.ws d w).tm =
      { s.tm with regs := { s.tm.regs with s := if d = 0 then s.tm.regs.s else Tbl.set 0 s.tm.regs.s d w }, haz := haz } := by
  obtain ⟨k, j, hc⟩ := State.cur_of_isGath hg
  unfold State.ws
  split
  · exact ⟨onlyTeam_refl s, s.tm.haz, by simp⟩
  · rename_i hd
    rw [hc]
    refine ⟨onlyTeam_onTm s _, s.tm.hazard (.s d) 1 (.s (Tbl.get 0 s.tm.regs.s d)) (.s w) :: s.tm.haz, ?_⟩
    simp only [State.tm_onTm, hs, mergeNew]
    simp

/-- At the start of an issue nothing of the instruction itself is pending. -/
theorem Team.opened_varPending {t : Team} {n : Info} {fl : Nat} {due : Option Nat} {ipc : Word} {r : RegName} {l : Nat}
    (hd : due ≠ none) :
    (t.opened n fl due ipc).varPending (t.opened n fl due ipc).due.2 r l = t.varPending none r l := by
  cases due with
  | none => simp at hd
  | some x => simp [Team.opened, Team.due, Team.varPending]

/-- The end of the issue of a fixed-latency instruction moves the path on. -/
theorem Team.closed_fixed {t : Team} {n : Info} {l : Nat} {ipc : Word} (h : n.lat = .fixed l) :
    t.closed n ipc false =
      { t with path := loopBack ipc { t.path with pc := nextPc ipc }, flt := { t.flt with replay := false } } := by
  simp [Team.closed, Team.endIssue, h]

end Sys2Proof.Machine
end

