-- ==== Sys2Proof/Tests/Slice0.lean ====
section
/-! SUPPORT. Own tests: ill-formed instructions are refused, words written out from the spec's encodings decode to what they stand
for, results worked out by hand or in the spec, and for every statement a state and operands that meet its hypotheses together.
The words' fields are those of 05 R86 and R93; their opcodes are those of 05 R102. -/

namespace Sys2Proof.Tests

open Sys2Proof Sys2Proof.Machine

set_option Elab.async false

/-! Words: STALL, WAIT, SIG, OPC, guard and fields put in their places. -/

def h0 : Head := ⟨0, 0, 0, 0⟩
def h3 : Head := ⟨1, 0, 1, 0⟩

/-- A word decodes to this instruction. -/
def reads (e : Word × Instr) : Bool := match decode e.1 with | .ok j => decide (j = e.2) | .error _ => false

/-- A word is refused for this reason. -/
def refuses (e : Word × DecodeError) : Bool := match decode e.1 with | .ok _ => false | .error x => decide (x = e.2)

def wordsScalar : List (Word × Instr) := [
  (0x0000020014184004, .sadd h0 ⟨10, 3, 2, 0, false, false, 4⟩),
  (0x1000120814106029, .ssub h3 ⟨10, 2, 3, 0, false, true, 9⟩),
  (0x000002101417FFFA, .saddi h0 ⟨10, 2, 0x7fffa⟩),
  (0x1000121814184004, .smul h3 ⟨10, 3, 2, 0, false, false, 4⟩),
  (0x0000022014186009, .smulh h0 ⟨10, 3, 3, 0, false, false, 9⟩),
  (0x1000122814204004, .sdiv h3 ⟨10, 4, 2, 0, false, false, 4⟩),
  (0x0000023014204004, .srem h0 ⟨10, 4, 2, 0, false, false, 4⟩),
  (0x1000123814284000, .sand h3 ⟨10, 5, 2, 0, false, false, 0⟩),
  (0x0000024014084000, .sor h0 ⟨10, 1, 2, 0, false, false, 0⟩),
  (0x100012481418A000, .sxor h3 ⟨10, 3, 5, 0, false, false, 0⟩),
  (0x00000250142800FF, .sandi h0 ⟨10, 5, 255⟩),
  (0x100012581417FFF8, .sori h3 ⟨10, 2, 0x7fff8⟩),
  (0x0000026014284000, .sshl h0 ⟨10, 5, 2, 0, false, false, 0⟩),
  (0x1000126814184000, .sshr h3 ⟨10, 3, 2, 0, false, false, 0⟩),
  (0x0000027014204000, .ssar h0 ⟨10, 4, 2, 0, false, false, 0⟩),
  (0x1000127814184004, .smin h3 ⟨10, 3, 2, 0, false, false, 4⟩),
  (0x0000028014184004, .smax h0 ⟨10, 3, 2, 0, false, false, 4⟩),
  (0x1000128814184104, .scmp h3 ⟨10, 3, 2, 2, false, false, 4⟩),
  (0x0000029014084000, .ssel h0 ⟨10, 1, 2, 0, false, false, 0⟩),
  (0x1000129814280000, .smov h3 ⟨10, 5, 0, 0, false, false, 0⟩),
  (0x000002A015FFFFFE, .sli h0 ⟨10, 0x1fffffe⟩),
  (0x100012A80A112233, .slih h3 ⟨5, 0x112233⟩),
  (0x000002B014280000, .sclz h0 ⟨10, 5, 0, 0, false, false, 0⟩),
  (0x100012B814280000, .spop h3 ⟨10, 5, 0, 0, false, false, 0⟩),
  (0x000002C014288184, .sbfx h0 ⟨10, 5, 4, 3, false, false, 4⟩),
  (0x100012C806110380, .sbfi h3 ⟨3, 2, 8, 7, false, false, 0⟩),
  (0x000002D014084180, .slea h0 ⟨10, 1, 2, 3, false, false, 0⟩),
  (0x100012D814104006, .sv2s h3 ⟨10, 2, 2, 0, false, false, 6⟩),
  (0x00000DD014000000, .time h0 ⟨10, 0, 0, 0, false, false, 0⟩),
  (0x10001DD814000080, .cyc h3 ⟨10, 0, 0, 1, false, false, 0⟩),
  (0x00000E0814100080, .deqHdr h0 ⟨10, 2, 0, 1, false, false, 0⟩),
  (0x10001E0814000100, .deqArg h3 ⟨10, 0, 0, 2, false, false, 0⟩),
  (0x00000E1014000080, .qcwRd h0 ⟨10, 0, 0, 1, false, false, 0⟩)]
def wordsInt : List (Word × Instr) := [
  (0x1000140014104006, .vadd h3 ⟨10, 2, 2, 0, false, false, 6⟩),
  (0x0000040814184026, .vsub h0 ⟨10, 3, 2, 0, false, true, 6⟩),
  (0x100014101411BFFF, .vaddi h3 ⟨10, 2, 0x1bfff⟩),
  (0x0000041814106006, .vmul h0 ⟨10, 2, 3, 0, false, false, 6⟩),
  (0x1000142014206009, .vmulh h3 ⟨10, 4, 3, 0, false, false, 9⟩),
  (0x0000042814186108, .vmad h0 ⟨10, 3, 3, 2, false, false, 8⟩),
  (0x1000143014106187, .vdot2 h3 ⟨10, 2, 3, 3, false, false, 7⟩),
  (0x0000043814106186, .vdot4 h0 ⟨10, 2, 3, 3, false, false, 6⟩),
  (0x1000144014380021, .vabs h3 ⟨10, 7, 0, 0, false, true, 1⟩),
  (0x0000044814380001, .vneg h0 ⟨10, 7, 0, 0, false, false, 1⟩),
  (0x100014501410E001, .vmin h3 ⟨10, 2, 7, 0, false, false, 1⟩),
  (0x000004581410E006, .vmax h0 ⟨10, 2, 7, 0, false, false, 6⟩),
  (0x100014601410E00D, .vand h3 ⟨10, 2, 7, 0, false, false, 13⟩),
  (0x000004681410E00D, .vor h0 ⟨10, 2, 7, 0, false, false, 13⟩),
  (0x100014701410E00D, .vxor h3 ⟨10, 2, 7, 0, false, false, 13⟩),
  (0x000004781438000D, .vnot h0 ⟨10, 7, 0, 0, false, false, 13⟩),
  (0x1000148014106006, .vshl h3 ⟨10, 2, 3, 0, false, false, 6⟩),
  (0x0000048814104047, .vshr h0 ⟨10, 2, 2, 0, true, false, 7⟩),
  (0x1000149014386004, .vsar h3 ⟨10, 7, 3, 0, false, false, 4⟩),
  (0x0000049814106009, .vrshr h0 ⟨10, 2, 3, 0, false, false, 9⟩),
  (0x100014A014100404, .vsat h3 ⟨10, 2, 0, 8, false, false, 4⟩),
  (0x000004A814100006, .vclz h0 ⟨10, 2, 0, 0, false, false, 6⟩),
  (0x100014B014100006, .vpop h3 ⟨10, 2, 0, 0, false, false, 6⟩),
  (0x000004C014106080, .vsel h0 ⟨10, 2, 3, 1, false, false, 0⟩),
  (0x100014C814100000, .vmov h3 ⟨10, 2, 0, 0, false, false, 0⟩),
  (0x000004D014004006, .vbcst h0 ⟨10, 0, 2, 0, false, false, 6⟩),
  (0x100014D814C00012, .vli h3 ⟨10, 0xc00012⟩),
  (0x000004E014106006, .vpack h0 ⟨10, 2, 3, 0, false, false, 6⟩),
  (0x100014E814100086, .vunpk h3 ⟨10, 2, 0, 1, false, false, 6⟩),
  (0x000004F014000006, .viota h0 ⟨10, 0, 0, 0, false, false, 6⟩),
  (0x100010C814000080, .widr h3 ⟨10, 0, 0, 1, false, false, 0⟩),
  (0x000000D014000000, .maskr h0 ⟨10, 0, 0, 0, false, false, 0⟩)]
def wordsFloat : List (Word × Instr) := [
  (0x100018001428C010, .fadd h3 ⟨10, 5, 6, 0, false, false, 16⟩),
  (0x000008081428C010, .fsub h0 ⟨10, 5, 6, 0, false, false, 16⟩),
  (0x100018101428C010, .fmul h3 ⟨10, 5, 6, 0, false, false, 16⟩),
  (0x000008181428C310, .ffma h0 ⟨10, 5, 6, 6, false, false, 16⟩),
  (0x100018201428C010, .fmin h3 ⟨10, 5, 6, 0, false, false, 16⟩),
  (0x000008281428C010, .fmax h0 ⟨10, 5, 6, 0, false, false, 16⟩),
  (0x1000183814280803, .fcvt h3 ⟨10, 5, 0, 16, false, false, 3⟩),
  (0x0000084014280030, .frcp h0 ⟨10, 5, 0, 0, false, true, 16⟩),
  (0x1000184814400010, .frsq h3 ⟨10, 8, 0, 0, false, false, 16⟩),
  (0x0000085014280010, .fexp2 h0 ⟨10, 5, 0, 0, false, false, 16⟩),
  (0x1000185814400010, .flog2 h3 ⟨10, 8, 0, 0, false, false, 16⟩),
  (0x0000086014280010, .fclass h0 ⟨10, 5, 0, 0, false, false, 16⟩),
  (0x1000186814286010, .fscl h3 ⟨10, 5, 3, 0, false, false, 16⟩)]
def wordsCross : List (Word × Instr) := [
  (0x00000A0014106006, .xlane h0 ⟨10, 2, 3, 0, false, false, 6⟩),
  (0x10001A0814104006, .slide h3 ⟨10, 2, 2, 0, false, false, 6⟩),
  (0x00000A1014100186, .perm h0 ⟨10, 2, 0, 3, false, false, 6⟩),
  (0x10001A2014100006, .vred h3 ⟨10, 2, 0, 0, false, false, 6⟩),
  (0x00000A2814100006, .vscan h0 ⟨10, 2, 0, 0, false, false, 6⟩)]
def wordsPred : List (Word × Instr) := [
  (0x100014B80A106588, .vcmp h3 ⟨5, 2, 3, 11, false, false, 8⟩),
  (0x000008300A28C510, .fcmp h0 ⟨5, 5, 6, 10, false, false, 16⟩),
  (0x10001A400A084000, .pand h3 ⟨5, 1, 2, 0, false, false, 0⟩),
  (0x00000A480A084000, .por h0 ⟨5, 1, 2, 0, false, false, 0⟩),
  (0x10001A500A084000, .pxor h3 ⟨5, 1, 2, 0, false, false, 0⟩),
  (0x00000A580A080000, .pnot h0 ⟨5, 1, 0, 0, false, false, 0⟩),
  (0x100012880A184504, .scmp h3 ⟨5, 3, 2, 10, false, false, 4⟩),
  (0x000000B80A080280, .vote h0 ⟨5, 1, 0, 5, false, false, 0⟩)]
def wordsPath : List (Word × Instr) := [
  (0x1000100800000000, .nop h3 ⟨0, 0, 0, 0, false, false, 0⟩),
  (0x0000001000010002, .bra h0 ⟨2, 2⟩),
  (0x100010187FFF0000, .brs h3 ⟨0xfffe, 0⟩),
  (0x0000002000018000, .brc h0 ⟨3, 0⟩),
  (0x1000102800480000, .jmpi h3 ⟨0, 9, 0, 0, false, false, 0⟩),
  (0x0000002800080080, .jmpiU h0 ⟨0, 1, 0, 1, false, false, 0⟩),
  (0x1000104800080000, .ret h3 ⟨0, 1, 0, 0, false, false, 0⟩),
  (0x0000005000100003, .loop h0 ⟨0, 2, 3⟩),
  (0x1000105802100003, .loopx h3 ⟨1, 2, 3⟩)]
def wordsLinks : List (Word × Instr) := [
  (0x0000003815FFFFFC, .call h0 ⟨10, 0x1fffffc⟩),
  (0x1000104014080000, .calli h3 ⟨10, 1, 0, 0, false, false, 0⟩)]
def wordsCtl : List (Word × Instr) := [
  (0x0000003000000006, .land h0 ⟨6⟩),
  (0x0000009000000077, .sigck h0 ⟨119⟩),
  (0x0000006000000084, .yield h0 ⟨0, 132⟩),
  (0x0000006800000000, .exit h0 ⟨0, 0, 0, 0, false, false, 0⟩),
  (0x000000E000100020, .swr h0 ⟨0, 2, 32⟩)]
def wordsCtlScalar : List (Word × Instr) := [
  (0x100010B814080100, .vote h3 ⟨10, 1, 0, 2, false, false, 0⟩),
  (0x000000D814000020, .srd h0 ⟨10, 0, 32⟩),
  (0x100010B014340000, .waitf h3 ⟨10, 3, 4, 0⟩)]
def wordsRest : List (Word × Instr) := [
  (0x000000C014280000, .elect h0 ⟨10, 5, 0, 0, false, false, 0⟩),
  (0x1000109800000007, .rgne h3 ⟨0, 7⟩),
  (0x000000A000000000, .rgnl h0 ⟨0, 0, 0, 0, false, false, 0⟩),
  (0x000000A800000009, .mark h0 ⟨9⟩),
  (0x0000007001000001, .trap h0 ⟨0, 0x1000001⟩),
  (0x1000108800000007, .brk h3 ⟨0, 7⟩),
  (0x0000008000000180, .halt h0 ⟨0, 0, 0, 3, false, false, 0⟩),
  (0x1000107800084000, .eret h3 ⟨0, 1, 2, 0, false, false, 0⟩)]
def wordsTopk : List (Word × Instr) := [
  (0x00000A3014104006, .topk h0 ⟨10, 2, 2, 0, false, false, 6⟩),
  (0x10001A3814104086, .topkx h3 ⟨10, 2, 2, 1, false, false, 6⟩)]
def wordsMemory : List (Word × Instr) := [
  (0x00000C0014080900, .ld h0 ⟨10, 1, 0, 9, 0, 0, 0, false⟩),
  (0x10001C10140808A8, .lda h3 ⟨10, 1, 0, 8, 5, 1, 0, false⟩),
  (0x00000C0804080D04, .st h0 ⟨2, 1, 0, 13, 0, 0, 2, false⟩),
  (0x10001C1804080850, .stl h3 ⟨2, 1, 0, 8, 2, 2, 0, false⟩),
  (0x00000C38040808B8, .atom h0 ⟨2, 1, 0, 8, 5, 3, 0, false⟩),
  (0x10001C201459D000, .ldt h3 ⟨10, 11, 14, 16, 0, 0, 0, false⟩),
  (0x00000C281459CE00, .ldtt h0 ⟨10, 11, 14, 14, 0, 0, 0, false⟩),
  (0x10001C3004701090, .stt h3 ⟨2, 14, 0, 16, 4, 2, 0, false⟩),
  (0x00000C40000000B8, .fence h0 ⟨0, 0, 0, 0, 5, 3, 0, false⟩),
  (0x10001C4800784000, .cinv h3 ⟨0, 15, 2, 0, 0, 0, 0, false⟩),
  (0x00000C5000080002, .pref h0 ⟨0, 1, 0, 0, 0, 0, 1, false⟩)]
def wordsCursor : List (Word × Instr) := [
  (0x10001B0000822000, .ldtld h3 ⟨0, 16, 17, 0, 0, 0, 0, false⟩),
  (0x00000B0802898000, .cinit h0 ⟨1, 17, 12, 0, false, false, 0⟩),
  (0x10001B0802906080, .cinitA h3 ⟨1, 18, 3, 1, false, false, 0⟩),
  (0x00000B10040A2000, .cdesc h0 ⟨2, 1, 17, 0, false, false, 0⟩),
  (0x10001B1802000200, .cnext h3 ⟨1, 0, 0, 4, false, false, 0⟩),
  (0x00000B2002018600, .cseek h0 ⟨1, 0, 12, 12, false, false, 0⟩),
  (0x10001B2802084080, .ccoit h3 ⟨1, 1, 2, 1, false, false, 0⟩),
  (0x00000B3014080000, .ccrd h0 ⟨10, 1, 0, 0, false, false, 0⟩),
  (0x10001B3814080000, .cpos h3 ⟨10, 1, 0, 0, false, false, 0⟩),
  (0x00000B4014080800, .cvld h0 ⟨10, 1, 0, 8, 0, 0, 0, false⟩),
  (0x10001B48000848B0, .cvst h3 ⟨0, 1, 2, 8, 5, 2, 0, false⟩),
  (0x00000B5006102800, .capp h0 ⟨3, 2, 1, 8, 0, 0, 0, false⟩),
  (0x10001B5806000000, .cclose h3 ⟨3, 0, 0, 0, false, false, 0⟩),
  (0x00000B6000900080, .cheap h0 ⟨0, 18, 0, 1, false, false, 0⟩),
  (0x10001B6808080000, .cmov h3 ⟨4, 1, 0, 0, false, false, 0⟩),
  (0x00000B7008080100, .ctest h0 ⟨4, 1, 0, 2, false, false, 0⟩),
  (0x10001B780008A000, .cpref h3 ⟨0, 1, 5, 0, 0, 0, 0, false⟩),
  (0x00000A1800100280, .ptld h0 ⟨0, 2, 0, 5, false, false, 0⟩)]
def wordsEngine : List (Word × Instr) := [
  (0x10001C5826A2A000, .cpy h3 ⟨19, 20, 21, 0, false, false, 0⟩),
  (0x00000C6026A2B000, .cpyt h0 ⟨19, 20, 21, 32, false, false, 0⟩),
  (0x10001C682CBB1000, .cpyg h3 ⟨22, 23, 24, 32, false, false, 0⟩),
  (0x00000C702CBB2008, .coll h0 ⟨22, 23, 25, 0, false, false, 8⟩)]
def wordsMatrix : List (Word × Instr) := [
  (0x10001D0006D34D80, .wbld h3 ⟨3, 26, 26, 27, false, false, 0⟩),
  (0x00000D0804000000, .wbinv h0 ⟨2, 0, 0, 0, false, false, 0⟩),
  (0x10001D101E000000, .azero h3 ⟨15, 0, 0, 0, false, false, 0⟩),
  (0x00000D1804002E31, .mma h0 ⟨2, 0, 1, 28, false, true, 17⟩),
  (0x10001D2004002E11, .mmas h3 ⟨2, 0, 1, 28, false, false, 17⟩),
  (0x00000D2808000040, .aprom h0 ⟨4, 0, 64⟩),
  (0x10001D3008E80020, .adrn h3 ⟨4, 29, 0, 0, false, true, 0⟩),
  (0x00000D3814204000, .ard h0 ⟨10, 4, 2, 0, false, false, 0⟩),
  (0x10001D4008104000, .awr h3 ⟨4, 2, 2, 0, false, false, 0⟩)]
def wordsSync : List (Word × Instr) := [
  (0x00000D8014000002, .barv h0 ⟨10, 0, 0, 2⟩),
  (0x10001D8814040001, .bwait h3 ⟨10, 0, 4, 1⟩),
  (0x00000D90140F0001, .bsync h0 ⟨10, 0, 15, 1⟩),
  (0x10001D9814000001, .bdrop h3 ⟨10, 0, 0, 1⟩),
  (0x00000DA000080010, .bexp h0 ⟨0, 0, 8, 16⟩),
  (0x10001DA8143F0000, .cbar h3 ⟨10, 3, 15, 0⟩),
  (0x00000DB0142E0005, .gbar h0 ⟨10, 2, 14, 5⟩),
  (0x10001DB804F80000, .dcset h3 ⟨2, 31, 0⟩),
  (0x00000DC014FFFFFF, .dcadd h0 ⟨10, 31, 0x7ffff⟩),
  (0x10001DC814030805, .dcwait h3 ⟨10, 0, 3, 0x805⟩)]
def wordsQueue : List (Word × Instr) := [
  (0x00000E00143BC000, .enq h0 ⟨10, 7, 30, 0, false, false, 0⟩),
  (0x10001E08143BC000, .deq h3 ⟨10, 7, 30, 0, false, false, 0⟩),
  (0x00000E1000000480, .qcwRst h0 ⟨0, 0, 0, 9, false, false, 0⟩),
  (0x10001E1800100080, .qpush h3 ⟨0, 2, 0, 1, false, false, 0⟩),
  (0x00000E2014010080, .qpop h0 ⟨10, 0, 8, 1, false, false, 0⟩),
  (0x10001E2814010080, .qpeek h3 ⟨10, 0, 8, 1, false, false, 0⟩)]

theorem test_words_scalar : wordsScalar.all reads = true := by decide +kernel
theorem test_words_int : wordsInt.all reads = true := by decide +kernel
theorem test_words_float : wordsFloat.all reads = true := by decide +kernel
theorem test_words_cross : wordsCross.all reads = true := by decide +kernel
theorem test_words_pred : wordsPred.all reads = true := by decide +kernel
theorem test_words_path : wordsPath.all reads = true := by decide +kernel
theorem test_words_links : wordsLinks.all reads = true := by decide +kernel
theorem test_words_ctl : wordsCtl.all reads = true := by decide +kernel
theorem test_words_ctlscalar : wordsCtlScalar.all reads = true := by decide +kernel
theorem test_words_rest : wordsRest.all reads = true := by decide +kernel
theorem test_words_topk : wordsTopk.all reads = true := by decide +kernel
theorem test_words_memory : wordsMemory.all reads = true := by decide +kernel
theorem test_words_cursor : wordsCursor.all reads = true := by decide +kernel
theorem test_words_engine : wordsEngine.all reads = true := by decide +kernel
theorem test_words_matrix : wordsMatrix.all reads = true := by decide +kernel
theorem test_words_sync : wordsSync.all reads = true := by decide +kernel
theorem test_words_queue : wordsQueue.all reads = true := by decide +kernel

/-- The words that the spec prints with their fields: 05 R107, 07 R157, 08 R183, 09 R203, 12 R281 and R286, 13 R310, 16 R360. -/
def wordsPrinted : List (Word × Instr) := [
  (0x3009_2401_8828_C003, .vadd ⟨3, 0x009, 2, 3⟩ ⟨4, 5, 6, 0, false, false, 3⟩),
  (0x0000_0068_0000_0000, .exit h0 ⟨0, 0, 0, 0, false, false, 0⟩),
  (0x0000_0838_0A30_0714, .fcvt h0 ⟨5, 6, 0, 0x0E, false, false, 0x14⟩),
  (0x0001_2B28_0208_4000, .ccoit ⟨0, 1, 2, 0⟩ ⟨1, 1, 2, 0, false, false, 0⟩),
  (0x0001_3D18_0420_22B1, .mma ⟨0, 1, 3, 0⟩ ⟨2, 4, 1, 5, false, true, 0x11⟩),
  (0x0000_1C38_0810_08A8, .atom ⟨0, 0, 1, 0⟩ ⟨4, 2, 0, 0x08, 5, 1, 0, false⟩),
  (0x0000_2C58_0828_C080, .cpy ⟨0, 0, 2, 0⟩ ⟨4, 5, 6, 1, false, false, 0⟩),
  (0x0000_1E20_0800_E100, .qpop ⟨0, 0, 1, 0⟩ ⟨4, 0, 7, 2, false, false, 0⟩),
  (0x0000_1D90_062F_0004, .bsync ⟨0, 0, 1, 0⟩ ⟨3, 2, 15, 4⟩)]

theorem test_words_printed : wordsPrinted.all reads = true := by decide +kernel

/-- R86: a word is stored little-endian; the bytes of the statement that 05 R107 encodes, and the rest of the stream. -/
theorem test_bytes_printed : (match decodeBytes [0x03, 0xC0, 0x28, 0x88, 0x01, 0x24, 0x09, 0x30, 0xAA] with
    | .ok (i, rest) => decide (i = .vadd ⟨3, 0x009, 2, 3⟩ ⟨4, 5, 6, 0, false, false, 3⟩) && rest == [0xAA]
    | .error _ => false) = true := by decide +kernel

/-- R103: what no decoder takes, one word for every reason and for every format. -/
theorem test_words_refused : [
    (0x0000_0000_0000_0000, DecodeError.opcodeZero), (0x0000_0FF8_0000_0000, .unallocated 0x1FF),
    (0x0000_00E8_0000_0000, .unallocated 0x1D), (0x0000_0031_0000_0006, .formatS),
    (0x0000_D200_0000_0000, .illFormed .sig), (0x0000_0204_0000_0004, .illFormed .guard),
    (0x0000_0200_1410_4084, .illFormed (.field 3)), (0x0000_0200_1410_4044, .illFormed .form),
    (0x0000_0200_1410_4003, .illFormed .form), (0x0000_0C00_1408_0906, .illFormed .form),
    (0x0000_0A40_1410_4000, .illFormed (.field 0))].all refuses = true := by decide +kernel


/-- Ill-formed terms, one for every check of well-formedness, with the check that refuses them (R86, R94, R95, R97, R98, R7). -/
theorem test_ill_formed : [
    (Instr.nop ⟨0, 0, 13, 0⟩ ⟨0, 0, 0, 0, false, false, 0⟩, WfError.sig),
    (.nop ⟨0, 0, 0, 8⟩ ⟨0, 0, 0, 0, false, false, 0⟩, .guard),
    (.nop h0 ⟨0, 0, 1, 0, false, false, 0⟩, .field 2), (.land ⟨0, 0, 0, 1⟩ ⟨0⟩, .form),
    (.ccoit h0 ⟨7, 1, 2, 0, false, false, 0⟩, .field 0), (.mma h0 ⟨16, 4, 1, 5, false, false, 0x11⟩, .field 0),
    (.fadd h0 ⟨1, 2, 3, 0, false, false, 4⟩, .form), (.smulh h0 ⟨1, 2, 3, 0, false, true, 4⟩, .form),
    (.lda h0 ⟨1, 2, 3, 9, 5, 0, 0, false⟩, .form), (.aprom h0 ⟨1, 0, 65⟩, .form), (.waitf h0 ⟨1, 13, 15, 0⟩, .form),
    (.bexp h0 ⟨1, 0, 0, 1⟩, .field 0), (.classPromotion 192 3, .unit "core" 192), (.spcWrite 0 8 0, .unit "j" 8)].all
      (fun e => decide (e.1.check = some e.2)) = true := by decide +kernel

/-! One step on a small state, with results worked out by hand from the rules, or printed in the spec. -/

/-- A placed machine whose team has lanes 0 and 1 active, and these registers. -/
def base (word : Word) : State :=
  let s := State.reset.withFetchWord 64 word.toNat
  let regs : TeamRegs := {
    s := [(1, 0x100), (2, 5), (3, 0xFFFF_FFFF_FFFF_FFFF), (4, 0x8000_0000_0000_0000), (5, 0x0123_4567_89AB_CDEF)]
    v := [(1024 + 0, { val := 0x2000 }), (1024 + 1, { val := 0x2040 }),
      (2048 + 0, { val := 0x0102_0304_0506_0708 }), (2048 + 1, { val := 0x7F80_FF00_0100_0203 }),
      (3072 + 0, { val := 5 }), (3072 + 1, { val := 1 }), (4096 + 0, { val := 0x7FFF_FFFF_FFFF_FFFF }), (4096 + 1, { val := 0x8000_0000_0000_0000 }),
      (5120 + 0, { val := 0x3F80_0000_4000_0000 }), (5120 + 1, { val := 0xC040_0000_7FC0_0000 }),
      (6144 + 0, { val := 0x4040_0000_3F00_0000 }), (7168 + 0, { val := 0x80FF_7F00_0000_0000 }), (8192 + 0, { val := 0x4080_0000_3E80_0000 }),
      (9216 + 0, { val := 0x100 }), (9216 + 1, { val := 0x100 })]
    p := [(1, 1), (2, 2)]
    sig := 0x77
    flags := [(4, { count := 0 })] }
  let s := s.onTm (fun t => { t with path := { t.path with mask := Mask.of 3 }, regs := regs })
  let s := s.onTabs 0 (fun t => { t with pats := [(3, { img := 0x0001_0203_0405_0607, lv := true })] })
  let s := s.onGroup 0 0 (fun g => { g with queues := [(1, 0x0002_0000_0800_0000)], nbar := 4, size := 0x8000 })
  s.onMem (fun m => m.writeLe 0x20_0100 8 (0x30_0000_0006))

/-- The state that an instruction answers. -/
def after (i : Instr) (s : State) : State := match exec i s with | .next t => t | _ => {}

/-- What an instruction has left in scalar register 10, and in lane `l` of vector register `r`. -/
def inS (i : Instr) (s : State) : Word := Tbl.get 0 (after i s).tm.regs.s 10
def inV (i : Instr) (s : State) (r l : Nat) : Word := (Tbl.get ({} : VCell) (after i s).tm.regs.v (1024 * r + l)).val

/-- Results that nothing pends on: as if their instruction had completed. -/
def quiet (s : State) : State := s.onTm (fun t => { t with haz := [], fly := [] })

def S : State := base 0

/-- Scalar register 10 after an instruction; the two SLIH of 07 R139 build 0x1234_5678_9ABC_DEF0. -/
theorem test_scalar_results : [
    (Instr.sadd h0 ⟨10, 3, 2, 0, false, false, 4⟩, 4), (.ssub h0 ⟨10, 2, 3, 0, false, true, 9⟩, 0),
    (.saddi h0 ⟨10, 2, 0x7FFFA⟩, 0xFFFF_FFFF_FFFF_FFFF), (.smul h0 ⟨10, 3, 2, 0, false, false, 4⟩, 0xFFFF_FFFF_FFFF_FFFB),
    (.smul h0 ⟨10, 4, 2, 0, false, true, 4⟩, 0x8000_0000_0000_0000), (.smulh h0 ⟨10, 3, 3, 0, false, false, 9⟩, 0xFFFF_FFFF_FFFF_FFFE),
    (.sdiv h0 ⟨10, 4, 3, 0, false, false, 4⟩, 0x8000_0000_0000_0000), (.sdiv h0 ⟨10, 4, 0, 0, false, false, 4⟩, 0),
    (.srem h0 ⟨10, 4, 3, 0, false, false, 4⟩, 0), (.srem h0 ⟨10, 5, 0, 0, false, false, 9⟩, 0x0123_4567_89AB_CDEF),
    (.sand h0 ⟨10, 5, 2, 0, false, false, 0⟩, 5), (.sor h0 ⟨10, 1, 2, 0, false, false, 0⟩, 0x105),
    (.sxor h0 ⟨10, 3, 5, 0, false, false, 0⟩, 0xFEDC_BA98_7654_3210), (.sandi h0 ⟨10, 5, 0xFF⟩, 0xEF),
    (.sori h0 ⟨10, 2, 0x7FFF8⟩, 0xFFFF_FFFF_FFFF_FFFD), (.sshl h0 ⟨10, 5, 2, 0, false, false, 0⟩, 0x2468_ACF1_3579_BDE0),
    (.sshr h0 ⟨10, 3, 2, 0, false, false, 0⟩, 0x07FF_FFFF_FFFF_FFFF), (.ssar h0 ⟨10, 4, 2, 0, false, false, 0⟩, 0xFC00_0000_0000_0000)].all
      (fun e => inS e.1 S == BitVec.ofNat 64 e.2) = true := by decide +kernel

theorem test_scalar_moves : [
    (Instr.smin h0 ⟨10, 3, 2, 0, false, false, 4⟩, 0xFFFF_FFFF_FFFF_FFFF), (.smax h0 ⟨10, 3, 2, 0, false, false, 4⟩, 5),
    (.scmp h0 ⟨10, 3, 2, 2, false, false, 4⟩, 1), (.scmp h0 ⟨10, 3, 2, 2, false, false, 9⟩, 0),
    (.ssel h0 ⟨10, 1, 2, 0, false, false, 0⟩, 5), (.smov h0 ⟨10, 1, 0, 0, false, false, 0⟩, 0x100), (.sli h0 ⟨10, 0x1FFFFFE⟩, 0xFFFF_FFFF_FFFF_FFFE),
    (.sclz h0 ⟨10, 5, 0, 0, false, false, 0⟩, 7), (.sclz h0 ⟨10, 0, 0, 0, false, false, 0⟩, 64), (.spop h0 ⟨10, 5, 0, 0, false, false, 0⟩, 32),
    (.sbfx h0 ⟨10, 5, 4, 3, false, false, 4⟩, 0xFFFF_FFFF_FFFF_FFFE), (.sbfi h0 ⟨10, 2, 8, 7, false, false, 0⟩, 0x500),
    (.slea h0 ⟨10, 1, 2, 3, false, false, 0⟩, 0x128), (.sv2s h0 ⟨10, 2, 2, 0, false, false, 6⟩, 3), (.sv2s h0 ⟨10, 7, 2, 0, false, false, 1⟩, 0x7F),
    (.sv2s h0 ⟨10, 2, 1, 0, false, false, 6⟩, 0), (.call h0 ⟨10, 4⟩, 8), (.calli h0 ⟨10, 1, 0, 0, false, false, 0⟩, 8)].all
      (fun e => inS e.1 S == BitVec.ofNat 64 e.2) = true ∧
    inS (.slih h0 ⟨10, 0xBCDEF0⟩) (quiet (after (.slih h0 ⟨10, 0x56789A⟩) (quiet (after (.sli h0 ⟨10, 0x1234⟩) S)))) = 0x1234_5678_9ABC_DEF0 := by
  decide +kernel

/-- Lane 0 of v10 after an integer instruction. -/
theorem test_integer_results : [
    (Instr.vadd h0 ⟨10, 2, 2, 0, false, false, 6⟩, 0x0204_0608_0A0C_0E10), (.vsub h0 ⟨10, 3, 2, 0, false, true, 6⟩, 0),
    (.vaddi h0 ⟨10, 2, 0x1BFFF⟩, 0x0001_0203_0405_0607), (.vmul h0 ⟨10, 2, 3, 0, false, false, 6⟩, 0x28), (.vmulh h0 ⟨10, 4, 3, 0, false, false, 9⟩, 2),
    (.vmad h0 ⟨10, 3, 3, 2, false, false, 8⟩, 0x0102_0304_0506_0721), (.vdot2 h0 ⟨10, 2, 3, 3, false, false, 7⟩, 0x232D),
    (.vdot4 h0 ⟨10, 2, 3, 3, false, false, 6⟩, 0x2D), (.vabs h0 ⟨10, 7, 0, 0, false, true, 1⟩, 0x7F01_7F00_0000_0000),
    (.vneg h0 ⟨10, 7, 0, 0, false, false, 1⟩, 0x8001_8100_0000_0000), (.vmin h0 ⟨10, 2, 7, 0, false, false, 1⟩, 0x80FF_0300_0000_0000),
    (.vmax h0 ⟨10, 2, 7, 0, false, false, 6⟩, 0x80FF_7F04_0506_0708), (.vand h0 ⟨10, 2, 7, 0, false, false, 0xD⟩, 0x0002_0300_0000_0000),
    (.vor h0 ⟨10, 2, 7, 0, false, false, 0xD⟩, 0x81FF_7F04_0506_0708), (.vxor h0 ⟨10, 2, 7, 0, false, false, 0xD⟩, 0x81FD_7C04_0506_0708)].all
      (fun e => inV e.1 S 10 0 == BitVec.ofNat 64 e.2) = true := by decide +kernel

theorem test_shift_and_pack_results : [
    (Instr.vnot h0 ⟨10, 7, 0, 0, false, false, 0xD⟩, 0x7F00_80FF_FFFF_FFFF), (.vshl h0 ⟨10, 2, 3, 0, false, false, 6⟩, 0x0102_0304_0506_0700),
    (.vshr h0 ⟨10, 2, 2, 0, true, false, 7⟩, 0x0102_0304_0506_0038), (.vsar h0 ⟨10, 7, 3, 0, false, false, 4⟩, 0xFC07_FBF8_0000_0000),
    (.vrshr h0 ⟨10, 3, 0, 0, true, false, 9⟩, 5), (.vrshr h0 ⟨10, 8, 2, 0, true, false, 9⟩, 0x0204_0000_01F4_0000),
    (.vsat h0 ⟨10, 2, 0, 8, false, false, 4⟩, 127), (.vclz h0 ⟨10, 2, 0, 0, false, false, 6⟩, 0x0706_0605_0505_0504),
    (.vpop h0 ⟨10, 2, 0, 0, false, false, 6⟩, 0x0101_0201_0202_0301), (.vsel h0 ⟨10, 2, 3, 1, false, false, 0⟩, 0x0102_0304_0506_0708),
    (.vmov h0 ⟨10, 7, 0, 0, false, false, 0⟩, 0x80FF_7F00_0000_0000), (.vbcst h0 ⟨10, 0, 2, 0, false, false, 6⟩, 0x0505_0505_0505_0505),
    (.vli h0 ⟨10, 0xC00012⟩, 0x1212_1212_1212_1212), (.vpack h0 ⟨10, 2, 3, 0, false, false, 6⟩, 0x0000_0005_0204_0608),
    (.vunpk h0 ⟨10, 2, 0, 1, false, false, 6⟩, 0x0001_0002_0003_0004), (.viota h0 ⟨10, 0, 0, 0, false, false, 6⟩, 0x0706_0504_0302_0100),
    (.maskr h0 ⟨10, 0, 0, 0, false, false, 0⟩, 0x0000_0003_0000_0001)].all
      (fun e => inV e.1 S 10 0 == BitVec.ofNat 64 e.2) = true := by decide +kernel

/-- Floating point; the last is the conversion that 07 R157 works out. -/
theorem test_float_results : [
    (Instr.fadd h0 ⟨10, 5, 6, 0, false, false, 0x10⟩, 0x4080_0000_4020_0000), (.fsub h0 ⟨10, 5, 6, 0, false, false, 0x10⟩, 0xC000_0000_3FC0_0000),
    (.fmul h0 ⟨10, 5, 6, 0, false, false, 0x10⟩, 0x4040_0000_3F80_0000), (.ffma h0 ⟨10, 5, 6, 6, false, false, 0x10⟩, 0x40C0_0000_3FC0_0000),
    (.fmin h0 ⟨10, 5, 6, 0, false, false, 0x10⟩, 0x3F80_0000_3F00_0000), (.fmax h0 ⟨10, 5, 6, 0, false, false, 0x10⟩, 0x4040_0000_4000_0000),
    (.fcvt h0 ⟨10, 5, 0, 0x10, false, false, 3⟩, 0x0000_0001_0000_0002), (.frcp h0 ⟨10, 5, 0, 0, false, false, 0x10⟩, 0x3F80_0000_3F00_0000),
    (.frsq h0 ⟨10, 8, 0, 0, false, false, 0x10⟩, 0x3F00_0000_4000_0000), (.fexp2 h0 ⟨10, 5, 0, 0, false, false, 0x10⟩, 0x4000_0000_4080_0000),
    (.flog2 h0 ⟨10, 8, 0, 0, false, false, 0x10⟩, 0x4000_0000_C000_0000), (.fclass h0 ⟨10, 5, 0, 0, false, false, 0x10⟩, 0x0000_0040_0000_0040),
    (.fscl h0 ⟨10, 5, 3, 0, false, false, 0x10⟩, 0x3F80_0000_4280_0000)].all
      (fun e => inV e.1 S 10 0 == BitVec.ofNat 64 e.2) = true ∧
    (inV (.fcvt h0 ⟨5, 6, 0, 0x0E, false, false, 0x14⟩) (S.onTm (fun t => { t with regs := { t.regs with v := [(6144, { val := 0xC200_4000_3C00_4900 })] } })) 5 0
      = 0x0000_0000_0000_D528) := by decide +kernel

/-- Cross-lane operations over lanes 0 and 1, and the TOPK and TOPKX that 07 R166 works out: 3.0, NaN, 5.0, -0, 5.0, +0, -inf, 1.0. -/
theorem test_cross_lane_results : [
    (Instr.xlane h0 ⟨10, 2, 3, 0, false, false, 6⟩, 0x0808_0808_0808_0803), (.slide h0 ⟨10, 2, 2, 0, false, false, 6⟩, 0x0001_0002_0301_0203),
    (.perm h0 ⟨10, 2, 0, 3, false, false, 6⟩, 0x0807_0605_0403_0201), (.vred h0 ⟨10, 2, 0, 0, false, false, 6⟩, 0x2828_2828_2828_2828),
    (.vscan h0 ⟨10, 2, 0, 0, false, false, 6⟩, 0x2423_211E_1A15_0F08)].all
      (fun e => inV e.1 S 10 0 == BitVec.ofNat 64 e.2) = true := by decide +kernel

def topkState : State := S.onTm (fun t => { t with
  path := { t.path with mask := Mask.of 0xF }
  regs := { t.regs with s := [(4, 6)]
                        v := [(8192, { val := 0x7FC0_0000_4040_0000 }), (8193, { val := 0x8000_0000_40A0_0000 }), (8194, { val := 0x0000_0000_40A0_0000 }),
                          (8195, { val := 0x3F80_0000_FF80_0000 }), (9219, { val := 0x1111_1111_2222_2222 })] } })

theorem test_topk_printed :
    (List.range 4).map (fun l => inV (.topk h0 ⟨9, 8, 4, 0, false, false, 0x10⟩) topkState 9 l) =
      [0x40A0_0000_40A0_0000, 0x3F80_0000_4040_0000, 0x0000_0000_8000_0000, 0x1111_1111_2222_2222] ∧
    (List.range 3).map (fun l => inV (.topkx h0 ⟨10, 8, 4, 0, false, false, 0x10⟩) topkState 10 l) =
      [0x0000_0004_0000_0002, 0x0000_0007_0000_0000, 0x0000_0005_0000_0003] := by decide +kernel

/-- Predicate 5 after an instruction, in lanes 0 and 1. -/
theorem test_predicate_results : [
    (Instr.vcmp h0 ⟨5, 2, 3, 11, false, false, 8⟩, 0), (.vcmp h0 ⟨5, 3, 2, 2, false, false, 8⟩, 3), (.fcmp h0 ⟨5, 5, 6, 10, false, false, 0x10⟩, 3),
    (.fcmp h0 ⟨5, 5, 6, 6, false, false, 0x10⟩, 2), (.pand h0 ⟨5, 1, 2, 0, false, false, 0⟩, 0), (.por h0 ⟨5, 1, 2, 0, false, false, 0⟩, 3),
    (.pxor h0 ⟨5, 1, 0, 0, false, false, 0⟩, 2), (.pnot h0 ⟨5, 1, 0, 0, false, false, 0⟩, 2), (.scmp h0 ⟨5, 3, 2, 10, false, false, 4⟩, 3),
    (.vote h0 ⟨5, 1, 0, 5, false, false, 0⟩, 3), (.vote h0 ⟨5, 1, 0, 4, false, false, 0⟩, 0)].all
      (fun e => Tbl.get 0 (after e.1 S).tm.regs.p 5 == BitVec.ofNat 1024 e.2) = true := by decide +kernel

/-- 06 R113, R114, R117, R120, R132: where the path goes. -/
theorem test_path_results : [
    (Instr.nop h0 ⟨0, 0, 0, 0, false, false, 0⟩, 8), (.bra h0 ⟨2, 2⟩, 0x10), (.brs ⟨0, 0, 0, 1⟩ ⟨3, 0⟩, 0x18), (.brc ⟨0, 0, 0, 1⟩ ⟨3, 0⟩, 8),
    (.jmpi h0 ⟨0, 9, 0, 0, false, false, 0⟩, 0x100), (.jmpiU h0 ⟨0, 1, 0, 1, false, false, 0⟩, 0x100), (.ret h0 ⟨0, 1, 0, 0, false, false, 0⟩, 0x100),
    (.loop h0 ⟨0, 0, 3⟩, 0x20), (.loop h0 ⟨0, 2, 3⟩, 8), (.loopx h0 ⟨1, 2, 3⟩, 8), (.call h0 ⟨10, 4⟩, 0x20), (.land h0 ⟨6⟩, 8)].all
      (fun e => (after e.1 S).tm.path.pc == BitVec.ofNat 64 e.2) = true ∧
    ((after (.loopx h0 ⟨1, 2, 3⟩) S).tm.path.loops = [{ start := 8, last := 0x18, count := 66 }]) ∧
    (inS (.elect h0 ⟨10, 5, 0, 0, false, false, 0⟩) S = 0) ∧ (inS (.vote h0 ⟨10, 1, 0, 2, false, false, 0⟩) S = 1) := by
  decide +kernel

/-- 04, worked example of R82: the tile that a drain into an .i4 page forms of 15.0, -3.3, 0.75 and 0.375. -/
theorem test_tile_printed :
    let xs := [(0, 0x4170_0000), (1, 0xC053_3333), (16, 0x3F40_0000), (18, 0x3EC0_0000)]
    let t := formTile ((List.range 256).map (fun e => ((xs.find? (fun x => x.1 == e)).map Prod.snd).getD 0)) 1 4
    ((List.range 128).all (fun n => t.1.getD n 0 == (if n = 0 then 0x97 else if n = 8 then 0x03 else if n = 9 then 0x06 else 0)) = true) ∧
      (List.range 10).map (fun n => t.2.1 / 256 ^ n % 256) = [0x80, 0x01, 0xFC, 0xFF, 0xFF, 0xFF, 0xE8, 0xFF, 0xFF, 0xFF] ∧ t.2.2 = 33 := by
  decide +kernel

/-! For every statement: its hypotheses hold together of this state and these operands. -/

/-- Nothing that is not settled is in a register of these lanes. -/
def clear (s : State) (r : RegName) (ls : List Nat) : Bool := ls.all (fun l => !s.tm.varPending none r l)

/-- Register values beside those of `base`. -/
def withS (s : State) (xs : List (Nat × Nat)) : State :=
  s.onTm (fun t => { t with regs := { t.regs with s := xs.foldl (fun r x => Tbl.set 0 r x.1 (BitVec.ofNat 64 x.2)) t.regs.s } })

def scalarEntry (s : State) (i : Instr) : Option (Nat × Word × Nat) :=
  (scalarArith s i <|> scalarDivide s i <|> scalarBitwise s i <|> scalarMove s i <|> scalarReads s i)

theorem met_scalar_results : (wordsScalar.map Prod.snd).all (fun i => (scalarEntry S i).any (fun r =>
    canIssue i S && S.servedBy i != 0 && clear S (.s r.1) [0])) = true := by decide +kernel

/-- The register that discards what is written to it, and a guard that one lane of two meets (R45, R94). -/
theorem met_scalar_results_edge : [Instr.sadd ⟨0, 0, 12, 1⟩ ⟨0, 3, 3, 0, false, true, 9⟩, .sdiv h0 ⟨63, 4, 3, 0, false, false, 4⟩,
    .sbfx h0 ⟨1, 5, 0, 63, false, false, 9⟩, .slea ⟨0, 0, 0, 0xA⟩ ⟨1, 1, 1, 7, false, false, 0⟩, .cyc h0 ⟨0, 0, 0, 0, false, false, 0⟩].all
      (fun i => (scalarEntry S i).any (fun r => canIssue i S && S.servedBy i != 0 && clear S (.s r.1) [0])) = true := by decide +kernel

def laneEntry (s : State) (i : Instr) : Option LaneResult :=
  (laneArith s i <|> laneBitwise s i <|> laneMove s i <|> laneFloat s i <|> laneGather s i <|> laneReduce s i <|>
    match i with | .perm _ o => permResult s i o | _ => none)

theorem met_lane_results : ((wordsInt ++ wordsFloat ++ wordsCross).map Prod.snd).all (fun i => (laneEntry S i).any (fun r =>
    canIssue i S && r.clean && clear S (.v r.d) (S.lanesBy i))) = true := by decide +kernel

theorem met_lane_results_edge : [Instr.vadd ⟨0, 0, 12, 9⟩ ⟨63, 2, 4, 0, true, true, 0⟩, .fadd ⟨0, 0, 0, 0xA⟩ ⟨0, 63, 5, 0, true, true, 0xE⟩,
    .xlane ⟨0, 0, 0, 3⟩ ⟨2, 2, 3, 0, false, false, 0x14⟩].all (fun i => (laneEntry S i).any (fun r =>
      canIssue i S && r.clean && clear S (.v r.d) (S.lanesBy i))) = true := by decide +kernel

theorem met_predicate_results : (wordsPred.map Prod.snd ++ [Instr.pand h0 ⟨0, 0, 0, 0, false, false, 0⟩]).all (fun i => (predTable S i).any (fun r =>
    canIssue i S && r.clean && clear S (.p r.d) (S.lanesBy i))) = true := by decide +kernel

theorem met_paths_and_calls :
    ((wordsPath.map Prod.snd).all (fun i => (ctlPath S i).isSome && canIssue i S)) = true ∧
    ((wordsLinks.map Prod.snd).all (fun i => (linkTarget S i).any (fun e => canIssue i S && S.servedBy i != 0 && clear S (.s e.1) [0]))) = true := by
  decide +kernel

theorem met_team_state_instructions : (wordsCtl.map Prod.snd).all (fun i => (ctlRegs S i).isSome && canIssue i S) = true := by decide +kernel

theorem met_control_scalar_results : (wordsCtlScalar.map Prod.snd).all (fun i => match i with
    | .srd _ o => canIssue i S && S.servedBy i != 0 && (sysOpen o.imm.toNat || (sysPriv o.imm.toNat && S.tm.id.prv)) && clear S (.s o.d.toNat) [0]
    | _ => (ctlScalar S i).any (fun e => canIssue i S && clear S (.s e.1) [0])) = true := by decide +kernel

/-- R59: the first and the last number of every range of system registers. -/
theorem met_system_registers : [0x000, 0x001, 0x002, 0x010, 0x011, 0x020, 0x021, 0x022, 0x023, 0x030, 0x031, 0x032, 0x040, 0x05F, 0x060, 0x061, 0x07F, 0x080,
    0x0BF].all (fun n => let i := Instr.srd h0 ⟨0, 0, BitVec.ofNat 19 n⟩
      canIssue i S && S.servedBy i != 0 && (sysOpen n || (sysPriv n && S.tm.id.prv)) && clear S (.s 0) [0]) = true := by decide +kernel

theorem met_elect : let i := Instr.elect h0 ⟨10, 5, 0, 0, false, false, 0⟩
    canIssue i S = true ∧ clear S (.s 10) [0] = true ∧ clear S (.p 5) (S.lanesBy i) = true := by decide +kernel

/-- R114: lane 0 takes the branch and lane 1 does not, with one place left on the stack. -/
theorem met_branch_diverges : let s := S.onTm (fun t => { t with path := { t.path with stack := List.replicate 31 {} } })
    let o : FmtB := ⟨2, 2⟩
    let i := Instr.bra ⟨0, 0, 0, 1⟩ o
    let T := s.servedBy i
    let F := s.active &&& ~~~T
    canIssue i s = true ∧ T ≠ 0 ∧ F ≠ 0 ∧ goalOf o s.ipc ≠ nextPc s.ipc ∧ o.join ≠ 0 ∧ s.tm.path.stack.length < 32 ∧ T ||| F = s.active ∧
      ¬ (goalOf o s.ipc).toNat ≤ s.ipc.toNat := by decide +kernel

/-- R117: lanes 0 and 1 go to two places that may be jumped to. -/
theorem met_jump_diverges : let s := S.onMem (fun m => m.writeLe 0x20_0180 8 0x30_0000_0006)
    let s := s.onTm (fun t => { t with regs := { t.regs with v := [(9216, { val := 0x100 }), (9217, { val := 0x180 })] }
                                       path := { t.path with stack := List.replicate 31 {} } })
    let o : FmtA := ⟨0, 9, 1, 0, false, false, 0⟩
    let i := Instr.jmpi h0 o
    canIssue i s = true ∧ jmpiClean s i o = true ∧ jmpiTargets s i o = [(0, 0x100), (1, 0x180)] ∧ o.b ≠ 0 ∧ s.rs 1 ≠ 0 ∧
      pcMask (s.rs 1) = s.rs 1 ∧ s.tm.path.stack.length + 1 ≤ 32 ∧ ¬ (0x100 : Word).toNat ≤ s.ipc.toNat := by decide +kernel

theorem met_jump_target_sets : targetSets [(0, 0x100), (1, 0x180)] [(0x100, 1), (0x180, 2)] := by
  have key : ∀ l, l < 1024 → (1 : LaneBits).getLsbD l = decide (l = 0) ∧ (2 : LaneBits).getLsbD l = decide (l = 1) := by decide +kernel
  refine ⟨by decide, by decide, ?_⟩
  simp only [List.mem_cons, List.not_mem_nil, or_false, forall_eq_or_imp, forall_eq, exists_eq_or_imp, exists_eq_left]
  refine ⟨⟨by simp, fun l hl => ?_⟩, by simp, fun l hl => ?_⟩
  · rw [(key l hl).1]; simp [@eq_comm _ l]
  · rw [(key l hl).2]; simp [@eq_comm _ l]

/-- R35: the third backward branch to the same place reaches a threshold of 16 set by 15 counted before; the path on top of the stack is elsewhere. -/
theorem met_spinning_paths :
    let s := S.onTm (fun t => { t with path := { t.path with stack := [⟨0x80, 0x40, Mask.of 4, none⟩], spin := 15, tgt := some 0 } })
    let s := s.onCore 0 (fun c => { c with ctl := { c.ctl with spinth := 16 } })
    [Instr.bra h0 ⟨0, 2⟩, .brs h0 ⟨0, 0⟩, .brc h0 ⟨0, 0⟩].all (fun i => canIssue i s && branchTo s i == some 0 && demotes s 0) = true := by decide +kernel

theorem met_regions_and_marks : let full := S.onTm (fun t => { t with regs := { t.regs with regions := [8, 7, 6, 5, 4, 3, 2, 1] } })
    ([S, full].all (fun s => [Instr.rgne h0 ⟨0, 0xFFFF⟩, .rgnl h0 ⟨0, 0, 0, 0, false, false, 0⟩].all (fun i => canIssue i s && s.servedBy i != 0))) = true ∧
      canIssue (.mark h0 ⟨9⟩) S = true := by decide +kernel

theorem met_waitf_waits : let s := S.onTm (fun t => { t with regs := { t.regs with flags := [(12, { count := 64 })] } })
    let o : FmtW := ⟨10, 12, 15, 63⟩
    let i := Instr.waitf h0 o
    let own := Instr.waitf ⟨0, 0, 12, 0⟩ o
    let u := S.onTm (fun t => { t with regs := { t.regs with flags := [(12, { count := 63 })] } })
    canIssue i s = true ∧ s.servedBy i ≠ 0 ∧ o.count.toNat < (s.tm.flag o.obj.toNat).count + (if flagOf i = o.obj.toNat then 1 else 0) ∧
      canIssue own u = true ∧ u.servedBy own ≠ 0 ∧ flagOf own = 12 ∧ (u.tm.flag 12).count = o.count.toNat := by
  decide +kernel

/-- No fault that is raised without regard to the guard stands against an instruction (R103). -/
def deadCleanB (s : State) : Instr → Bool
  | .eret .. => s.tm.id.prv
  | .srd _ o => !sysPriv o.imm.toNat || s.tm.id.prv
  | .swr _ o => o.imm.toNat == 0x020 || s.tm.id.prv
  | .cpy _ o | .cpyt _ o | .cpyg _ o => s.tm.path.stack.isEmpty && (o.c.getLsbD 5 || decide (o.c.toNat % 32 < s.grpOf.nbar)) && (s.freeGuard s.ck).isSome
  | .coll .. => s.tm.path.stack.isEmpty
  | _ => true

/-- Every team-uniform instruction under a guard that no lane meets, in a team of its role. -/
def unserved (e : Word × Instr) : Bool :=
  match decode (e.1 ||| 0x1_8000_0000) with
  | .ok i => let s := base e.1
             !teamUniform i || (canIssue i s && s.servedBy i == 0 && deadCleanB s i)
  | .error _ => false

theorem met_uniform_without_lanes : (wordsScalar ++ wordsLinks ++ wordsCtlScalar ++ wordsEngine ++ wordsSync ++ wordsQueue).all unserved = true := by
  decide +kernel

theorem met_uniform_without_lanes_control : [Instr.nop ⟨0, 0, 0, 3⟩ ⟨0, 0, 0, 0, false, false, 0⟩, .jmpiU ⟨0, 0, 0, 3⟩ ⟨0, 1, 0, 1, false, false, 0⟩,
    .ret ⟨0, 0, 0, 3⟩ ⟨0, 1, 0, 0, false, false, 0⟩, .loop ⟨0, 0, 0, 3⟩ ⟨0, 2, 3⟩, .loopx ⟨0, 0, 0, 3⟩ ⟨0, 2, 3⟩, .yield ⟨0, 0, 0, 3⟩ ⟨0, 4⟩,
    .trap ⟨0, 0, 0, 3⟩ ⟨0, 4⟩, .eret ⟨0, 0, 0, 3⟩ ⟨0, 1, 2, 0, false, false, 0⟩, .halt ⟨0, 0, 0, 3⟩ ⟨0, 0, 0, 0, false, false, 0⟩, .brk ⟨0, 0, 0, 3⟩ ⟨0, 4⟩,
    .rgne ⟨0, 0, 0, 3⟩ ⟨0, 4⟩, .rgnl ⟨0, 0, 0, 3⟩ ⟨0, 0, 0, 0, false, false, 0⟩, .swr ⟨0, 0, 0, 3⟩ ⟨0, 2, 0x20⟩, .stt ⟨0, 0, 0, 3⟩ ⟨2, 14, 0, 0x10, 0, 0, 0, false⟩,
    .fence ⟨0, 0, 0, 3⟩ ⟨0, 0, 0, 0, 5, 3, 0, false⟩, .cinv ⟨0, 0, 0, 3⟩ ⟨2, 0, 0, 0, 0, 0, 0, false⟩, .ldtld ⟨0, 0, 0, 3⟩ ⟨0, 1, 2, 0, 0, 0, 0, false⟩,
    .cheap ⟨0, 0, 0, 3⟩ ⟨0, 1, 0, 0, false, false, 0⟩, .ptld ⟨0, 0, 0, 3⟩ ⟨0, 1, 0, 0, false, false, 0⟩].all
      (fun i => teamUniform i && canIssue i S && S.servedBy i == 0 && deadCleanB S i) = true := by decide +kernel

theorem met_core_register_writes : [0x030, 0x031, 0x040].all (fun n => let i := Instr.swr h0 ⟨0, 2, BitVec.ofNat 19 n⟩
    canIssue i S && S.servedBy i != 0 && S.tm.id.prv && (n == 0x030 || n == 0x031 || sysPriv n)) = true := by decide +kernel

def saving : State := S.onGroup 0 0 (fun g => { g with saving := true })
theorem met_yield_parks : let i := Instr.yield h0 ⟨0, 0x80 ||| 64⟩
    canIssue i saving = true ∧ saving.servedBy i ≠ 0 ∧ saving.grpOf.saving = true ∧ (0x80 ||| 64 : Nat) % 128 ≤ saving.tm.id.budget := by decide +kernel

/-- The fault queue of die 0 is open, its next record in the last slot of the ring. -/
def withQueue (s : State) : State := s.onDie 0 (fun d => { d with fq := { base := 0x30_0000, en := true, tail := 1023, head := 1020, used := 3, gens := [(1023, 5)] } })

def queueOpenB (s : State) : Bool :=
  let q := (s.die (dieOfCore s.ck)).fq
  s.ck < 192 && q.room 1 && q.tail < 1024 && (regionOf s.ddr (q.base + 64 * q.tail)).plain && Tbl.get 0 q.gens q.tail < 2 ^ 22

theorem met_stops_of_a_team : (queueOpenB (withQueue S) && [Instr.trap h0 ⟨0, 0x1FFFFFF⟩, .brk h0 ⟨0, 0xFFFF⟩, .halt h0 ⟨0, 0, 0, 63, false, false, 0⟩].all (fun i =>
    canIssue i (withQueue S) && (withQueue S).servedBy i != 0)) = true ∧ (withQueue S).tm.flt.win = none ∧
    (let s := (withQueue S).onTm (fun t => { t with flt := { t.flt with win := some { code := 0x10 } } });
      [Instr.trap h0 ⟨0, 1⟩, .fadd h0 ⟨1, 2, 3, 0, false, false, 4⟩].map (fun i => canIssue i s) = [true, false] ∧ s.tm.flt.win.isSome = true) := by decide +kernel

theorem met_illegal_instructions : (queueOpenB (withQueue S) && [Instr.fadd h0 ⟨1, 2, 3, 0, false, false, 4⟩, .nop ⟨0, 0, 0, 8⟩ ⟨0, 0, 0, 0, false, false, 0⟩,
    .cpy h0 ⟨19, 20, 21, 0, false, false, 0⟩, .azero h0 ⟨1, 0, 0, 0, false, false, 0⟩].all (fun i =>
      !isEvent i && S.tm.st == 1 && !S.isGath && !S.tm.flt.replay && S.unitFree i && decide ((instrInfo i).head.sig.toNat ≤ 12) &&
        (!(instrInfo i).legal S.tm.id.budget || !roleOk S.tm.id.role (instrInfo i).opc))) = true := by decide +kernel

def unprivileged : State := (withQueue S).onTm (fun t => { t with id := { t.id with prv := false } })
theorem met_privilege_faults : (queueOpenB unprivileged && [(Instr.srd h0 ⟨10, 0, 0x40⟩, 0x40), (.swr h0 ⟨0, 2, 0x30⟩, 0x30), (.swr h0 ⟨0, 2, 0x40⟩, 0x40),
    (.eret h0 ⟨0, 1, 2, 0, false, false, 0⟩, 0), (.srd ⟨0, 0, 0, 3⟩ ⟨10, 0, 0x40⟩, 0x40)].all (fun e => canIssue e.1 unprivileged && !unprivileged.tm.id.prv &&
      (match e.1 with | .srd _ o => o.imm.toNat == e.2 && sysPriv e.2 | .swr _ o => o.imm.toNat == e.2 && (e.2 == 0x30 || sysPriv e.2) | .eret .. => e.2 == 0 | _ => false))) =
      true := by decide +kernel

/-- A team in slot 1 waits for the record with handle 7 + 1024; s6 names it, s7 and s8 the actions 1 and 3. -/
def stopped1 : State :=
  let s := (withQueue S).onTeam 0 1 (fun _ => { st := 2, id := { gref := 0x77, tenant := 1 }, flt := { pf := true, handle := 1031, code := 0x0E } })
  let s := s.onDie 0 (fun d => { d with fq := { d.fq with recs := [{ handle := 1031, pend := true, core := 0, unit := 1, gref := 0x77, code := 0x0E }] } })
  s.onTm (fun t => { t with regs := { t.regs with s := [(6, 1031), (7, 1), (8, 3)] } })

theorem met_eret_resolves : let s := stopped1
    let o : FmtA := ⟨0, 6, 7, 0, false, false, 0⟩
    let i := Instr.eret h0 o
    (canIssue i s = true ∧ s.servedBy i ≠ 0 ∧ s.tm.id.prv = true ∧ eretTarget s ⟨0, 0, 7, 0, false, false, 0⟩ = none) ∧
    ((eretTarget s ⟨0, 6, 8, 0, false, false, 0⟩).map Prod.snd = some 3 ∧ canIssue (.eret h0 ⟨0, 6, 8, 0, false, false, 0⟩) s = true) ∧
    (eretTarget s o).any (fun e => let r := e.1
      let v := s.team r.core r.unit
      decide (e.2 ≤ 1) && r.agent == 0 && decide ((r.core, r.unit) ≠ (s.ck, s.slot)) && v.id.gref == r.gref && v.st != 0 && v.flt.pf &&
        (regionOf s.ddr ((s.die 0).fq.base + 64 * (r.handle.toNat % 1024) + 37)).plain) = true := by decide +kernel

/-- The records of a copy, a drain, a gatherer, of the team itself and of one that is saved, each with an action that is for it. -/
theorem met_eret_actions : let recs := fun (rs : List RecInfo) => stopped1.onDie 0 (fun d => { d with fq := { d.fq with recs := rs } })
    let r : RecInfo := { handle := 1031, pend := true, core := 0, unit := 1, gref := 0x77, code := 0x0E }
    let own := (recs [{ r with unit := 0, gref := 0 }]).onTm (fun t => { t with flt := { t.flt with pf := true } })
    let eng := (recs [{ r with agent := 2, unit := 9 }]).onCore 0 (fun c => { c with copies := [{ id := 9, pend := true }] })
    let drn := (recs [{ r with agent := 3 }]).onMat 0 (fun m => { m with drain := some { cmd := { op := .none_, iss := {} }, pend := true } })
    let gat := (recs [{ r with agent := 1, unit := 3 }]).onCore 0 (fun c => { c with gaths := [(3, { halt := true, handle := 1031 })] })
    let gone := recs [{ r with gref := 0x99 }]
    ([(own, 0), (own, 1), (eng, 0), (eng, 1), (eng, 2), (drn, 0), (drn, 2), (gat, 0), (gat, 1), (gat, 2), (gone, 0), (gone, 2), (stopped1, 2)].all (fun e =>
      let s := withS e.1 [(7, e.2)]
      let o : FmtA := ⟨0, 6, 7, 0, false, false, 0⟩
      canIssue (.eret h0 o) s && s.servedBy (.eret h0 o) != 0 && s.tm.id.prv && (eretTarget s o).any (fun x => x.2 == e.2) &&
        (regionOf s.ddr (recordByte s 0 r)).plain)) = true ∧
    (own.tm.id.gref = 0 ∧ own.tm.flt.pf = true ∧ (gone.team 0 1).id.gref ≠ 0x99 ∧ (gat.gath 0 3).halt = true ∧ (gat.gath 0 3).handle.toNat = 1031) := by decide +kernel

/-! Barriers, counters, queues. -/

/-- Vector register values beside those of `base`. -/
def withV (s : State) (xs : List (Nat × Nat × Nat)) : State :=
  s.onTm (fun t => { t with regs := { t.regs with v := xs.foldl (fun v x => Tbl.set {} v (1024 * x.1 + x.2.1) { val := BitVec.ofNat 64 x.2.2 }) t.regs.v } })

/-- Barrier 0 counts two and one team has arrived; barrier 1 is abandoned; barrier 2 stands in its other phase. -/
def barred : State := S.onTabs 0 (fun t => { t with bars := [(0, { arrm := [5], count := 2, arr := 1 }), (1, { stat := 3 }), (2, { phase := true })] })

theorem met_barrier_arrivals : let w : Nat → Nat → FmtW := fun o c => ⟨10, BitVec.ofNat 5 o, 0, BitVec.ofNat 16 c⟩
    ([(0, 2), (0, 0), (3, 1), (2, 16)].all (fun e => [Instr.barv h0 (w e.1 e.2), .bdrop h0 (w e.1 e.2)].all (fun i =>
      canIssue i barred && barred.servedBy i != 0 && decide (e.1 < barred.grpOf.nbar) && clear barred (.s 10) [0] &&
        (arrivalCount (barred.nbar 0 e.1) 0 e.2).isSome))) = true ∧
    (barred.nbar 0 1).stat ≠ 0 ∧ canIssue (.barv h0 (w 1 2)) barred = true ∧ canIssue (.bexp h0 ⟨0, 3, 8, 0xFFFF⟩) barred = true ∧
      barred.servedBy (.barv h0 (w 1 2)) ≠ 0 ∧ 3 < barred.grpOf.nbar := by decide +kernel

theorem met_barrier_waits :
    ([0, 1, 2].all (fun n => [0, 1].all (fun c => let i := Instr.bwait h0 ⟨10, BitVec.ofNat 5 n, 14, BitVec.ofNat 16 c⟩
      canIssue i barred && barred.servedBy i != 0 && decide (n < barred.grpOf.nbar) && clear barred (.s 10) [0] && !barred.tm.arrd))) = true ∧
    ([(0, 2), (2, 3)].all (fun e => let i := Instr.bsync h0 ⟨10, BitVec.ofNat 5 e.1, 15, BitVec.ofNat 16 e.2⟩
      canIssue i barred && barred.servedBy i != 0 && !barred.tm.arrd && (arrivalCount (barred.nbar 0 e.1) 0 e.2).isSome)) = true ∧
    (barred.nbar 0 1).stat ≠ 0 ∧ canIssue (.bsync h0 ⟨10, 1, 15, 2⟩) barred = true ∧ barred.servedBy (.bsync h0 ⟨10, 1, 15, 2⟩) ≠ 0 := by decide +kernel

/-- The clock of die 0 has a cycle to run. -/
def ticking (s : State) : State := s.onDie 0 (fun d => { d with clk := { d.clk with owed := 10000000000 } })

/-- Every arrival of barrier 3 of the group is made, and of cluster barrier 6 of its cluster (R353). -/
theorem met_phases_end : let b : Bar := { count := 2, arr := 2, arrm := [0, 1], phase := true }
    let s := (ticking (S.onTabs 0 (fun t => { t with bars := [(3, b)] }))).onDie 0 (fun d => { d with cbars := [(cbKey 0 6, b)] })
    ((s.die 0).clk.relock = none ∧ cyclePrice s ≤ (s.die 0).clk.owed ∧ (s.die 0).clk.next = none ∧ (s.die 0).clk.counted = false ∧ dieOfCore 0 = 0 ∧ s.stopped 0 = false ∧ (0, s.grpOf) ∈ (s.core 0).groups ∧ 3 < s.grpOf.nbar ∧
      s.nbar 0 (s.grpOf.bbase + 3) = b ∧ (cbKey 0 6, b) ∈ (s.die 0).cbars) ∧ b.stat = 0 ∧ b.count ≠ 0 ∧ b.arr = b.count ∧ b.exp = 0 := by decide +kernel

/-- A group of a task with cluster barriers 6 and 7 and grid barrier 3, in a cluster of four cores; barrier 6 is abandoned. -/
def wide : State :=
  let s := S.onGroup 0 0 (fun g => { g with hdr := (3#512 <<< 331) ||| (1#512 <<< 127) ||| (2#512 <<< 57) })
  s.onDie 0 (fun d => { d with cbars := [(cbKey 0 7, { count := 2, arr := 1, arrm := [99] }), (cbKey 0 6, { stat := 2 })] })

theorem met_wide_barriers : let i := Instr.cbar h0 ⟨10, 7, 15, 0⟩
    let j := Instr.gbar h0 ⟨10, 3, 0, 4⟩
    (canIssue i wide = true ∧ wide.servedBy i ≠ 0 ∧ wide.grpOf.hdr.getLsbD 332 = true ∧ recBits wide.grpOf.hdr 57 3 ≠ 0 ∧ clear wide (.s 10) [0] = true ∧
      wide.tm.arrd = false ∧ (arrivalCount (wide.cbar 0 7) (wide.tm.id.wideKey) 0).isSome = true) ∧
    (canIssue (.cbar h0 ⟨10, 6, 15, 0⟩) wide = true ∧ wide.servedBy (.cbar h0 ⟨10, 6, 15, 0⟩) ≠ 0 ∧ wide.grpOf.hdr.getLsbD 331 = true ∧ (wide.cbar 0 6).stat ≠ 0) ∧
    (canIssue j wide = true ∧ wide.servedBy j ≠ 0 ∧ wide.grpOf.hdr.getLsbD 127 = true ∧ wide.countsGrid 3 = true ∧ clear wide (.s 10) [0] = true ∧
      (arrivalCount (wide.gridBar 3) (wide.tm.id.wideKey) 4).isSome = true) ∧
    (let s : State := { wide with io := { wide.io with domidx := 1, grids := [(3, { map := 3, bar := { count := 4, arr := 1 } })] } };
      s.countsGrid 3 = false ∧ (s.gridBar 3).stat = 0 ∧ s.tm.id.wideKey ∉ (s.gridBar 3).arrm ∧ (s.gridBar 3).count = 4 ∧ canIssue j s = true ∧ s.servedBy j ≠ 0) := by decide +kernel

/-- Counters 4095 and 2050 are tenant 1's, and 2050 is 2. -/
def counted : State := withS ((S.onDie 3 (fun d => { d with dcs := [(1023, { owner := 1 })] })).onDie 2 (fun d => { d with dcs := [(2, { owner := 1, val := 2 })] })) [(31, 4095), (30, 2050)]

theorem met_dependency_counters :
    ([Instr.dcset h0 ⟨2, 31, 0⟩, .dcadd h0 ⟨10, 31, 0x7FFFF⟩, .dcwait h0 ⟨10, 31, 3, 0⟩, .dcwait h0 ⟨10, 0, 3, 2050⟩].all (fun i =>
      canIssue i counted && counted.servedBy i != 0 && clear counted (.s 10) [0] && !counted.tm.arrd)) = true ∧
    (counted.rs 31).toNat < 4096 ∧ (counted.dc (counted.rs 31).toNat).owner = counted.tm.id.tenant ∧ (counted.dc 4095).val = 0 ∧
      (counted.dc 2050).owner = counted.tm.id.tenant ∧ (counted.dc 2050).val = 2 := by decide +kernel

/-- Queue 9 of tenant 1 holds one record of two, queue 10 is full, queue 255 not enabled; s30 to s32 name them, s33 names the record. -/
def queued : State :=
  let s := S.onDie 0 (fun d => { d with queues := [
    (9, { base := 0x300, szlog := 1, tenant := 1, en := true, pull := true, tail := 1 }),
    (10, { base := 0x301, szlog := 1, tenant := 1, en := true, tail := 2 })] })
  let s := s.onDie 3 (fun d => { d with queues := [(255, { base := 0x302, tenant := 1 })] })
  withS s [(30, 9), (31, 10), (32, 255), (33, 0x7FC0)]

theorem met_task_queue_records : let s := queued
    ([30, 31, 32].all (fun b => let i := Instr.enq h0 ⟨10, 33, BitVec.ofNat 6 b, 0, false, false, 0⟩
      let j := Instr.deq h0 ⟨10, 33, BitVec.ofNat 6 b, 0, false, false, 0⟩
      let q := (s.rs b).toNat
      canIssue i s && canIssue j s && s.servedBy i != 0 && decide (q ≤ 255) && (s.tq q).tenant == s.tm.id.tenant && clear s (.s 10) [0] &&
        (regionOf s.ddr ((s.tq q).slot (s.tq q).tail)).plain)) = true ∧
    (s.rs 33).toNat % 64 = 0 ∧ (s.rs 33).toNat + 64 ≤ s.grpOf.size ∧ (s.grpOf.sBytes s.ck (s.rs 33).toNat 64).any s.guarded = false ∧
      (s.seeBytes s.ck 0 (s.grpOf.sBytes s.ck (s.rs 33).toNat 64)).2 = false ∧
      s.mem.unc ((s.tq 9).slot (s.tq 9).head) 64 = false ∧ (s.tq 9).count ≠ 0 ∧
      ((List.range 64).all (fun j => match regionOf s.ddr (winBase s.ck + (s.grpOf.base + (s.rs 33).toNat) + j) with | .scratch .. => true | _ => false)) = true := by
  decide +kernel

/-- Access queue 1: four elements of 16 bytes, the first at index 3; access queue 2: closed, with one element; queue 3: open and empty. -/
def accessed : State := S.onGroup 0 0 (fun g => { g with queues := [(1, 0x0007_0003_4800_0100), (2, 0x0001_0000_0A00_0200), (3, 0x0000_0000_0800_0300)] })

theorem met_access_queue_pops : let s := accessed
    ([1, 2, 3].all (fun q => let o : FmtA := ⟨10, 0, 8, BitVec.ofNat 6 q, false, false, 0⟩
      [Instr.qpop h0 o, .qpeek h0 o].all (fun i => let w := s.aq q
        let ls := s.lanesBy i
        canIssue i s && qDlog w != 0 && decide (ls.length ≤ 2 ^ qDlog w) && decide (10 + qEsize w / 8 ≤ s.tm.id.budget) &&
          (s.poppers s.ck s.tm.id.grp q).isEmpty && clear s (.s 8) [0] && clear s (.v 10) ls && clear s (.v 11) ls && !s.tm.arrd &&
          (match qServes w ls.length with
            | some n => s.popFree q n && (List.range n).all (fun m => (s.aqBytes w (qHead w + m)).all (fun b =>
                match regionOf s.ddr b.pa with | .scratch .. => true | _ => false))
            | none => true)))) = true ∧
    [1, 2, 3].map (fun q => qServes (s.aq q) 2) = [some 2, some 1, none] ∧
    canIssue (.qcwRst h0 ⟨0, 0, 0, 9, false, false, 0⟩) s = true ∧ s.servedBy (.qcwRst h0 ⟨0, 0, 0, 9, false, false, 0⟩) ≠ 0 ∧ qDlog (s.aq 1) ≠ 0 := by
  decide +kernel

/-! Memory. Page 1 of tenant 1 is a page of .e4m3 tiles, as in the example of 10 R247; page 2 is HBM; page 3 is DDR. -/

def leafAt (pa kind fmt gw sframe : Nat) : Nat := pa + 0xE3 + 2 ^ 56 + pa / 2 ^ 40 * 2 ^ 64 + kind * 2 ^ 75 + gw * 2 ^ 79 + fmt * 2 ^ 83 + sframe / 2048 * 2 ^ 87

def pagedAt (word : Word) : State :=
  let put := fun (s : State) (n leaf : Nat) => s.onMem (fun m => m.writeLe (placeTable 3 + 16 * n) 16 leaf)
  put (put (put (base word) 1 (leafAt 0x21_0000 1 5 3 0x28_0000)) 2 (leafAt 0x22_0000 0 0 0 0)) 3 (leafAt 0x100_0000_0000 2 0 0 0)

/-- v1: plain places; v2: a place across two pages and the last byte of one; v3: elements of the page of tiles. -/
def paged : State := withS (withV (pagedAt 0) [(1, 0, 0x2000), (1, 1, 0x2_0040), (2, 0, 0x2_FFFC), (2, 1, 0x3_FFF8), (3, 0, 0x1_155A), (3, 1, 0x1_FFFC),
  (4, 0, 37 + 90 * 2 ^ 32), (4, 1, 511 + 126 * 2 ^ 32), (5, 0, 90 + 36 * 2 ^ 32), (5, 1, 127 + 508 * 2 ^ 32), (6, 0, 0x38), (6, 1, 0x7FF8)]) [(14, 0x1_0000)]

/-- No access of the team is held behind the range guard. -/
def unheldB (s : State) : Bool := s.tm.fly.all (fun f => f.held.isEmpty)

/-- What a load of a scaled page reads is not behind the range guard. -/
def reachFree (s : State) (ea : Nat) (c : Checked) : Bool :=
  (loadElems s ea c).all (fun e => e.reach.all (fun b => !s.guarded b && (match s.region b with | .accum .. => false | _ => true)))

def readableB (s : State) (c : Checked) : Bool :=
  c.bytes.all (fun b => !s.guarded b && (match s.region b with | .accum .. => false | _ => true))

theorem met_loads : let s := paged
    [Instr.ld h0 ⟨10, 1, 0, 9, 0, 0, 2, false⟩, .ld h0 ⟨10, 2, 0, 4, 0, 0, 0, false⟩, .ld h0 ⟨10, 3, 0, 0x10, 0, 0, 0, false⟩, .ld h0 ⟨10, 6, 0, 9, 0, 0, 1, true⟩,
      .lda h0 ⟨10, 1, 0, 0xC, 7, 1, 0, false⟩, .lda h0 ⟨10, 6, 0, 8, 2, 1, 0, true⟩].all (fun i =>
        let r : FmtM × Bool := match i with | .ld _ o => (o, false) | .lda _ o => (o, true) | _ => (⟨0, 0, 0, 0, 0, 0, 0, false⟩, false)
        canIssue i s && cleanIn s i [r.1.a.toNat] && clear s (.v 10) (s.lanesBy i) && (s.lanesBy i).all (fun l =>
          match loadCheck s r.1 r.2 l with | .ok c => unheldB s && reachFree s (laneEa s r.1 l) c && (c.scaled != 0 || (readableB s c && (r.1.hint != 2 || c.bytes.all (fun b => s.seeByte s.ck c.kind b == s.seeByte s.ck 0 b)))) | .error _ => false)) =
      true := by decide +kernel

theorem met_stores : let s := paged
    [Instr.st h0 ⟨3, 1, 0, 9, 0, 0, 2, false⟩, .st h0 ⟨3, 2, 0, 4, 0, 0, 0, false⟩, .st h0 ⟨3, 6, 0, 0xE, 0, 0, 1, true⟩, .stl h0 ⟨3, 1, 0, 0xC, 7, 2, 0, false⟩].all (fun i =>
        let r : FmtM × Bool := match i with | .st _ o => (o, false) | .stl _ o => (o, true) | _ => (⟨0, 0, 0, 0, 0, 0, 0, false⟩, false)
        canIssue i s && unheldB s && cleanIn s i [r.1.a.toNat, r.1.d.toNat] && (s.lanesBy i).all (fun l =>
          match storeCheck s r.1 r.2 l with | .ok c => c.bytes.all (storable s) | .error _ => false)) = true := by decide +kernel

theorem met_atomics : let s := paged
    [(0, 8), (2, 0x10), (3, 0xC), (6, 0x10), (7, 9), (7, 3)].all (fun e => [0, 7].all (fun (sc : Nat) =>
      let o : FmtM := ⟨3, 1, BitVec.ofNat 6 e.1, BitVec.ofNat 5 e.2, BitVec.ofNat 3 sc, if sc = 0 then 0 else 3, 0, false⟩
      let i := Instr.atom h0 o
      canIssue i s && unheldB s && cleanIn s i [1, 3, 4] && decide (3 + 1 < s.tm.id.budget) && clear s (.v 3) (s.lanesBy i) && (s.lanesBy i).all (fun l =>
        match atomCheck s o l with
        | .ok c => c.bytes.all (fun b => b.dev.isNone && (regionOf s.ddr b.pa).plain && !s.guarded b && !s.mem.isBad b.pa)
        | .error _ => false))) = true := by decide +kernel

def tileLeaf (s : State) (va : Nat) : Nat := match s.translate s.ck s.tm.id.tenant va true false false with | .ok e => e | .error _ => 0

theorem met_tile_loads : let s := paged
    [(false, (4 : Nat), 0x10), (true, 5, 0xE)].all (fun e => let o : FmtM := ⟨10, BitVec.ofNat 6 e.2.1, 14, BitVec.ofNat 5 e.2.2, 0, 0, 0, false⟩
      let i := if e.1 then Instr.ldtt h0 o else Instr.ldt h0 o
      let n := 64 / tyWidth o.ty.toNat
      let leaf := tileLeaf s (s.rs 14).toNat
      canIssue i s && unheldB s && cleanIn s i [o.a.toNat] && clear s (.v 10) (s.lanesBy i) && pteFmt leaf != 0 && (s.rs 14).toNat % 65536 == 0 &&
        (s.lanesBy i).all (fun l => (List.range n).all (fun k => let m := matElem s leaf (ldtAt s o e.1 l k).1 (ldtAt s o e.1 l k).2
          s.placeErr s.tm.id.prv false m.reach == none && m.reach.all (fun b => !s.guarded b && (match s.region b with | .accum .. => false | _ => true)))) &&
        (s.lanesBy i).all (fun l => (s.rv o.a.toNat l).val.toNat / 2 ^ 32 % n == 0 && (List.range n).all (fun k =>
          decide ((ldtAt s o e.1 l k).1 < (pageShape leaf).1 ∧ (ldtAt s o e.1 l k).2 < (pageShape leaf).2)))) = true := by decide +kernel

/-- A team of 128 lanes stores a tile into the last place of the page. -/
theorem met_tile_store : let s := withS (paged.onTm (fun t => { t with id := { t.id with lanes := 128 } })) [(15, 0x1_FF00)]
    let o : FmtM := ⟨20, 15, 0, 0x10, 5, 2, 0, false⟩
    let i := Instr.stt h0 o
    let leaf := match s.translate s.ck s.tm.id.tenant 0x1_FF00 false true false with | .ok e => e | .error _ => 0
    let sz := payloadBytes (pteFmt leaf)
    let pay := pteAddr leaf + 0xFF00 / sz * sz
    let ent := pteSframe leaf + 16 * (0xFF00 / sz)
    canIssue i s = true ∧ s.servedBy i ≠ 0 ∧ pteFmt leaf = 5 ∧ s.leafDev leaf = none ∧ 0xFF00 % sz = 0 ∧ 256 ≤ teamWidth s 0x10 ∧
      ((List.range 128).all (fun l => !(s.rv 20 l).pz)) = true ∧ pteMalformed s.ddr leaf 3 = false ∧ pay + sz = 0x22_0000 ∧ ent = 0x28_0FF0 ∧
      (unheldB s && (List.range sz).all (fun j => !s.guarded { dev := none, pa := pay + j }) && (List.range 16).all (fun j => !s.guarded { dev := none, pa := ent + j })) = true ∧
      ((List.range 16).all (fun j => (regionOf s.ddr (ent + j)).plain) && (List.range sz).all (fun j => (regionOf s.ddr (pay + j)).plain)) = true := by
  decide +kernel

theorem met_fences_and_caches : let s := withS paged [(15, 0x2000), (16, 2 ^ 32)]
    ([Instr.fence h0 ⟨0, 0, 0, 0, 7, 1, 0, false⟩, .fence h0 ⟨0, 0, 0, 0, 0, 2, 0, false⟩, .cinv h0 ⟨0, 15, 16, 0, 0, 0, 0, false⟩, .cinv h0 ⟨1, 15, 2, 0, 0, 0, 0, false⟩,
      .cinv h0 ⟨3, 0, 0, 0, 0, 0, 0, false⟩, .pref h0 ⟨0, 1, 0, 0, 0, 0, 1, false⟩].all (fun i => canIssue i s && s.servedBy i != 0 && cleanIn s i [1])) = true ∧
      (s.rs 16).toNat ≤ 2 ^ 32 ∧ (match s.translate s.ck s.tm.id.tenant 0x2000 false false false with | .ok e => s.leafDev e == none | .error _ => false) = true := by
  decide +kernel

/-! Cursors. Entry 0 is dense, entry 1 a list of 16-bit coordinates with a heap, entry 2 a bitmap; entry 3 is malformed by kind only where it is read. -/

def descOf (kind cw ext nfib p0 p1 p2 : Nat) : Nat := kind + cw * 8 + ext * 2 ^ 256 + nfib * 2 ^ 288 + p0 * 2 ^ 320 + p1 * 2 ^ 384 + p2 * 2 ^ 448

/-- A heap entry (15 R346): EN, the tenant, where its chunks begin, how many there are and which is next. -/
def heapOf (cap next chunks tenant : Nat) : Nat := next + cap * 2 ^ 32 + 2 ^ 63 + tenant * 2 ^ 80 + chunks / 4096 * 2 ^ 88

def cursed : State :=
  let s := S.onTabs 0 (fun t => { t with ldt := [(0, { img := BitVec.ofNat 512 (descOf 0 0 5 4 0 0 0x1000), lv := true }),
    (1, { img := BitVec.ofNat 512 (descOf 1 1 64 4 0x1000 0x1020 0x1800), lv := true, hv := true }), (2, { img := BitVec.ofNat 512 (descOf 2 0 16 4 0x1040 0 0x1000), lv := true })] })
  let w := fun (m : Memory) (a : Nat) (n : Nat) (xs : List Nat) => (m.write (0x20_0000 + a) (xs.flatMap (leBytes n)))
  let s := s.onMem (fun m => w (w (w m 0x1000 4 [0, 3, 3, 7, 9]) 0x1020 2 [0, 4, 6, 1, 2, 3, 63, 5, 8]) 0x1040 8 [0x0000_0051_0022_8001])
  let s := s.onMem (fun m => (w (w m 0x3000 64 [descOf 0 0 5 4 0 0 0x1000]) 0xA_0000 16 [heapOf 8 7 0x30_0000 1, heapOf 8 0 0x31_0000 1]))
  let s := s.onDie 0 (fun d => { d with heaptab := 0x2A_0000 })
  let c0 : Cursor := { valid := true, ub := 5 }
  let c1 : Cursor := { ldti := 1, kind := 1, valid := true, ub := 3 }
  let s := s.onTm (fun t => { t with regs := { t.regs with c := [(1, c0), (2, c1), (9, { c0 with pos := 5, ub := 10 }), (10, { c1 with pos := 2, coord := 6 })] } })
  withS (withV s [(11, 0, 0), (11, 1, 3)]) [(20, 0), (21, 1), (22, 2), (23, 0x3000), (24, 255)]

def walkMet (i : Instr) : Bool := match walkOf cursed i with
  | some (cs, vs, f) => canIssue i cursed && cleanIn cursed i vs && cursed.tm.fly.isEmpty && cursed.tm.haz.isEmpty && (cursed.lanesBy i).all (fun l =>
      cs.all (fun c => !(cursed.rc c l).pz) && (match walkEnd (f l) with
        | .ok r => (r.curs.all (fun e => !cursed.tm.varPending none (.c e.1) l)) && (r.preds.all (fun e => !cursed.tm.varPending none (.p e.1) l)) && r.cell.all (fun e => !cursed.tm.varPending none (.v e.1) l)
        | .error _ => false))
  | none => false

theorem met_cursor_walks : ([Instr.cinit h0 ⟨3, 20, 11, 0, false, false, 0⟩, .cinit h0 ⟨3, 21, 11, 0, false, false, 0⟩, .cinit h0 ⟨7, 22, 21, 0, true, false, 0⟩,
    .cinitA h0 ⟨3, 21, 11, 1, false, false, 0⟩, .cdesc h0 ⟨3, 2, 21, 0, false, false, 0⟩, .cnext h0 ⟨1, 0, 0, 4, false, false, 0⟩, .cnext h0 ⟨2, 0, 0, 0, false, false, 0⟩,
    .cseek h0 ⟨2, 0, 3, 12, false, false, 0⟩, .cseek h0 ⟨1, 0, 11, 7, false, false, 0⟩, .ccoit h0 ⟨1, 1, 2, 0, false, false, 0⟩, .ccoit h0 ⟨6, 1, 2, 1, false, false, 0⟩,
    .ccoit h0 ⟨1, 2, 2, 0, false, false, 0⟩, .ccrd h0 ⟨10, 1, 0, 0, false, false, 0⟩, .cpos h0 ⟨10, 2, 0, 0, false, false, 0⟩, .ctest h0 ⟨4, 1, 0, 3, false, false, 0⟩,
    .cmov h0 ⟨4, 1, 0, 0, false, false, 0⟩] : List Instr).all walkMet = true ∧
  (cursed.grpOf.slots.all (fun j => (cursed.team cursed.ck j).fly.isEmpty)) = true := by decide +kernel

theorem met_fibres_in_order :
    (dKind (cursed.desc 0) = 0 ∧ 3 < dNfib (cursed.desc 0) ∧ dNfib (cursed.desc 0) * dExt (cursed.desc 0) ≤ 2 ^ 32 ∧ 0 < dExt (cursed.desc 0)) ∧
    (cursed.rc 1 0).kind = 0 ∧
    ([1, 2, 3, 4].map (metaBit cursed 2 (cursed.desc 2)) = [some false, some false, some false, some false] ∧ metaBit cursed 2 (cursed.desc 2) 15 = some true ∧
      [6, 14].map (metaBit cursed 2 (cursed.desc 2)) = [some false, some false]) ∧
    (cursed.rc 2 0).kind = 1 ∧ (cursed.rc 2 0).pos.toNat + 1 < (cursed.rc 2 0).ub.toNat ∧ metaCrd cursed 1 (cursed.desc 1) 1 = some 4 ∧ (cursed.rc 2 0).coord.toNat < 4 := by
  decide +kernel

theorem met_tables_are_loaded : let s := cursed
    let i := Instr.ldtld h0 ⟨0, 23, 24, 0, 5, 1, 0, false⟩
    let j := Instr.cheap h0 ⟨0, 21, 0, 1, false, false, 0⟩
    let k := Instr.ptld h0 ⟨0, 2, 0, 15, false, false, 0⟩
    (canIssue i s = true ∧ s.servedBy i ≠ 0 ∧ unheldB s = true ∧ (s.rs 23).toNat % 64 = 0 ∧ (s.rs 24).toNat ≤ 255 ∧
      (match s.checkLane false (s.rs 23).toNat 64 {} with
        | .ok c => decide (c.bytes.length = 64) && readableB s c && !(s.seeBytes s.ck c.kind c.bytes).2 && decide (dKind (leNat (s.seeBytes s.ck c.kind c.bytes).1) ≤ 5) &&
            descOk (leNat (s.seeBytes s.ck c.kind c.bytes).1)
        | .error _ => false) = true) ∧
    (canIssue j s = true ∧ s.servedBy j ≠ 0 ∧ s.ldtHeld (s.rs 21).toNat = true ∧ s.mem.unc (s.heapAddr 1) 16 = false ∧ (s.mem.readLe (s.heapAddr 1) 16).testBit 63 = true ∧
      natBits (s.mem.readLe (s.heapAddr 1) 16) 80 8 = s.tm.id.tenant) ∧
    (canIssue k s = true ∧ s.servedBy k ≠ 0 ∧ ((List.range 8).all (fun l => !(s.rv 2 l).pz)) = true) := by decide +kernel

def usableB (s : State) (c : Cursor) (app : Bool) : Bool :=
  !c.pz && decide (c.kind.toNat < 6) && c.valid && c.app == app && s.ldtHeld c.ldti.toNat && dKind (s.desc c.ldti.toNat) == c.kind.toNat

theorem met_values_at_cursors : let s := cursed
    [Instr.cvld h0 ⟨10, 1, 0, 8, 0, 0, 0, false⟩, .cvld h0 ⟨10, 2, 0, 0x10, 5, 1, 0, false⟩, .cvst h0 ⟨0, 1, 2, 9, 7, 2, 0, false⟩, .cpref h0 ⟨0, 1, 63, 0, 0, 0, 0, false⟩].all (fun i =>
      let o : FmtM := match i with | .cvld _ o | .cvst _ o | .cpref _ o => o | _ => ⟨0, 0, 0, 0, 0, 0, 0, false⟩
      canIssue i s && unheldB s && cleanIn s i [2] && clear s (.v 10) (s.lanesBy i) && (s.lanesBy i).all (fun l => usableB s (s.rc o.a.toNat l) false &&
        (match i with
          | .cvld .. => !pastBound s (s.rc o.a.toNat l) && (match cvldCheck s o l with | .ok c => readableB s c && reachFree s (valueEa s o l) c | .error _ => false)
          | .cvst .. => !pastBound s (s.rc o.a.toNat l) && (match cvstCheck s o l with | .ok c => c.bytes.all (storable s) | .error _ => false)
          | _ => true))) = true ∧
    (let u := s.onTm (fun t => { t with regs := { t.regs with c := [(1, { valid := true, ub := 5, pos := 4 }), (9, { valid := true, ub := 5, pos := 5 })] } });
      pastBound u (u.rc 1 0) = false ∧ pastBound u (u.rc 1 1) = true) := by decide +kernel

/-- Lane 0 alone, with an append cursor at the start of a chunk list, in a chunk, and at the end of one (R193 to R196). -/
def appending (pos coord : Nat) : State :=
  let s := withV cursed [(12, 0, 0x0000_0007_0000_0009)]
  s.onTm (fun t => { t with path := { t.path with mask := Mask.of 1 }
                            regs := { t.regs with c := [(3, { ldti := 1, kind := 1, valid := true, app := true, pos := BitVec.ofNat 32 pos, ub := 64, coord := BitVec.ofNat 32 coord })] } })

theorem met_appends : [(512, 0), (2 * 512 + 1, 8), (2 * 512 + 511, 8)].all (fun e => let s := appending e.1 e.2
    let i := Instr.capp h0 ⟨3, 12, 1, 8, 0, 0, 0, false⟩
    let c := s.rc 3 0
    let n := c.pos.toNat % 512
    let hp := (Tbl.get {} s.cr.tabs.ldt c.ldti.toNat).heap
    let new := s.chunkAddr (nextChunk s hp)
    let old := s.chunkAddr (c.pos.toNat / 512)
    let ha := s.heapAddr hp
    let x := s.mem.readLe ha 16
    let plain := fun a n => (List.range n).all (fun j => (regionOf s.ddr (a + j)).plain)
    let off := fun a n b m => decide (a + n ≤ b ∨ b + m ≤ a)
    canIssue i s && canIssue (.cclose h0 ⟨3, 0, 0, 0, false, false, 0⟩) s && !s.headGuarded c && s.lanesBy i == [0] && cleanIn s i [12] && usableB s c true && clear s (.c 3) [0] &&
      decide (9 < c.ub.toNat) && (n == 0 || decide (c.coord.toNat < 9)) &&
      (if n = 0 ∨ n = 511 then (Tbl.get {} s.cr.tabs.ldt 1).hv && decide (hp < 16) && !s.mem.unc ha 16 && x.testBit 63 && natBits x 64 16 == 0 && natBits x 51 12 == 0 &&
          natBits x 19 13 == 0 && decide (natBits x 0 19 < natBits x 32 19) && s.chunkOk (natBits x 88 40 * 4096 + 4096 * natBits x 0 19) && plain ha 16 && off ha 16 new 4096
        else plain (old + 8 * (n + 1)) 8) &&
      (n != 0 || (match s.checkG ((s.desc 1 / 2 ^ 320 % 2 ^ 64 + 4 * (c.pos.toNat / 512)) % 2 ^ 64) 4 { rd := false, wr := true } with
        | .ok k => decide (k.bytes = (List.range 4).map (fun j => { dev := none, pa := 0x20_1004 + j })) && plain 0x20_1004 4 && off ha 16 0x20_1004 4
        | .error _ => false)) &&
      (n != 511 || (off ha 16 old 8 && c.pos.toNat / 512 / 2 ^ 19 % 16 == hp && plain old 8))) = true := by decide +kernel

theorem met_topk : [Instr.topk h0 ⟨10, 2, 2, 1, false, false, 1⟩, .topkx h0 ⟨10, 5, 3, 0, false, false, 0x10⟩, .topk h0 ⟨10, 2, 0, 0, false, false, 4⟩].all (fun i =>
    canIssue i S && cleanIn S i [2, 5, 10] && clear S (.v 10) (S.lanesBy i)) = true ∧
    ((withS S [(6, 4)]).rs 6).toNat = 2 * ((withS S [(6, 4)]).lanesBy (.topkx h0 ⟨10, 5, 6, 0, false, false, 0x10⟩)).length ∧
    canIssue (.topkx h0 ⟨10, 5, 6, 0, false, false, 0x10⟩) (withS S [(6, 4)]) = true := by decide +kernel

/-! Engines: teams of role 1 and of role 2. -/


/-- Two views of eight words, rank 1, and a gather of two rows of 16 bytes, in the scratchpad. -/
def viewOf (at_ : Nat) : Nat := 2 + 1 * 2 ^ 4 + 8 * 2 ^ 288 + 4 * 2 ^ 88 + at_ * 2 ^ 448
def gatherOf : Nat := 2 * 2 ^ 224 + 16 * 2 ^ 192 + 16 * 2 ^ 128 + 16 * 2 ^ 64 + 0x600 * 2 ^ 32 + 2 ^ 3

def engined : State :=
  let s := base (0x18B#64 <<< 35)
  let s := s.onMem (fun m => ((m.writeLe (winBase 0 + 0x40) 64 (viewOf 0x2100)).writeLe (winBase 0 + 0x80) 64 (viewOf 0x2000)).writeLe (winBase 0 + 0xC0) 32 gatherOf)
  let s := { s with io := { s.io with ctxs := [(6, BitVec.ofNat 256 (2 ^ 255 + 1 * 2 ^ 247))] } }
  withS s [(19, 0x7F00), (20, 0x2000), (21, 0x4000_0100), (22, 0x40), (23, 0x80), (24, 0xC0), (26, 0x2100), (27, 0x0000_0600_0000_0004), (28, 0x8000_0010), (29, 0x2000)]

theorem met_engine_commands : let s := engined
    [Instr.cpy h0 ⟨19, 20, 21, 3, false, false, 0⟩, .cpy h0 ⟨29, 19, 28, 0x20, false, false, 0⟩, .cpyt h0 ⟨22, 23, 0, 0, false, false, 0⟩, .cpyg h0 ⟨19, 20, 24, 0x21, false, false, 0⟩].all (fun i =>
      (copyCommand s i).any (fun c => canIssue i s && s.lanesBy i != [] && s.tm.path.stack.isEmpty && (c.nb || decide (c.k < s.grpOf.nbar)) &&
        (c.dsp || oneWindow (s.dstBytes s.ck s.grpOf c)) && (copyCover s c == none || (s.freeGuard s.ck).isSome))) = true ∧
    (copyCover s ((copyCommand s (.cpy h0 ⟨19, 20, 21, 3, false, false, 0⟩)).getD {})) = some (0x7F00, 0x8000) := by decide +kernel

theorem met_collectives : let s := engined
    [0, 2].all (fun (op : Nat) => let o : FmtA := ⟨26, 20, 27, BitVec.ofNat 6 op, false, false, 8⟩
      let i := Instr.coll h0 o
      let b := s.rs 27
      let n := (b.extractLsb' 0 32).toNat * 4
      let x := s.ctxOf (b.extractLsb' 40 8).toNat
      canIssue i s && s.lanesBy i != [] && s.tm.path.stack.isEmpty && b.extractLsb' 48 16 == 0 && n == 16 && b.extractLsb' 32 8 == 0 && (s.rs 20).toNat % 4 == 0 &&
        (s.rs 26).toNat % 4 == 0 && decide ((s.rs 20).toNat + n ≤ (s.rs 26).toNat) && x.testBit 255 && natBits x 247 8 == s.tm.id.tenant &&
        (s.pageChecks (s.rs 20).toNat n false ++ s.pageChecks (s.rs 26).toNat n true).all (fun r => match r with | .ok _ => true | .error _ => false)) = true := by decide +kernel

/-- Slot 1 holds eight bands of .e4m3; a drain's description stands at offset 0x40 of the scratchpad. -/
def matrixed : State :=
  let s := base (0x1A3#64 <<< 35)
  let s := s.onMat 0 (fun m => { m with slots := [(1, { valid := true, fmt := 5, nb := 8 })], fifo := List.replicate 15 { op := .none_, iss := {} } })
  let s := s.onMem (fun m => m.writeLe (winBase 0 + 0x40) 64 (0x120 + 256 * 2 ^ 64 + 0x4000 * 2 ^ 448))
  let s := s.onGroup 0 0 (fun g => { g with size := 0x8000 })
  withS s [(26, 0x2000), (27, 0x805), (28, 0x0070_0010), (29, 0x40), (30, 62), (31, 0x7BC0)]

theorem met_matrix_commands : let s := matrixed
    ([Instr.wbld h0 ⟨3, 26, 26, 27, false, false, 0⟩, .wbinv h0 ⟨1, 0, 0, 0, false, false, 0⟩, .azero h0 ⟨15, 0, 0, 0, false, false, 0⟩, .mma h0 ⟨2, 0, 1, 28, false, true, 0x11⟩,
      .mmas h0 ⟨2, 31, 1, 28, false, false, 0x11⟩, .aprom h0 ⟨4, 0, 64⟩, .adrn h0 ⟨4, 29, 0, 0, false, true, 0⟩, .ard h0 ⟨10, 4, 30, 0, false, false, 0⟩, .awr h0 ⟨4, 2, 2, 0, false, false, 0⟩,
      .azero ⟨0, 0, 0, 3⟩ ⟨0, 0, 0, 0, false, false, 0⟩, .awr ⟨0, 0, 0, 3⟩ ⟨0, 2, 2, 0, false, false, 0⟩] : List Instr).all (fun i =>
      (matCommand s i).isSome && canIssue i s && s.tm.path.stack.isEmpty && decide (s.cr.mat.fifo.length < 16)) = true := by decide +kernel

/-! Gatherers. -/

/-- Gatherer 0 of core 0, of the group that has access queue 1 with room for one more element of 16 bytes. -/
def gathering : State :=
  let s := (withQueue S).onGroup 0 0 (fun g => { g with queues := [(1, 0x0007_0004_4800_0100)], gaths := [0] })
  let g : Gatherer := { bound := true, s := [(1, 7), (2, 5), (3, 0xFFFF_FFFF_FFFF_FFFF), (4, 0x8000_0000_0000_0000), (5, 9)] }
  { s.onCore 0 (fun c => { c with gaths := [(0, g)] }) with cur := .gath 0 0 }

theorem met_gatherers : let s := gathering;
    (((wordsScalar.map Prod.snd).take 26).filter (fun i => (instrInfo i).head.sig == 0)).all (fun i => gathCanIssue i s &&
      (scalarArith s i <|> scalarDivide s i <|> scalarBitwise s i <|> scalarMove s i).isSome) = true ∧
    (let i := Instr.qpush h0 ⟨0, 30, 0, 1, false, false, 0⟩;
      gathCanIssue i s = true ∧ qDlog (s.aq 1) ≠ 0 ∧ 30 + qEsize (s.aq 1) / 8 ≤ 32 ∧ qCount (s.aq 1) < 2 ^ qDlog (s.aq 1) ∧
        ((s.aqBytes (s.aq 1) (qTail (s.aq 1))).all (fun b => !s.guarded b && (regionOf s.ddr b.pa).plain)) = true) ∧
    queueOpenB s = true ∧ s.isGath = true ∧ s.unitFree (.vadd h0 ⟨10, 2, 2, 0, false, false, 6⟩) = true ∧ gathOpcode (instrInfo (.vadd h0 ⟨10, 2, 2, 0, false, false, 6⟩)).opc = false ∧
      (instrInfo (.sadd h3 ⟨10, 2, 2, 0, false, false, 4⟩)).gathLegal = false := by decide +kernel

/-! Events. -/

/-- Team 0 has an instruction to complete; team 1 met a fault in its window; team 2 waits at a complete barrier; team 3 has been READY for long; team 4
is to stop. -/
def teamed : State :=
  let s := (base (0x013#64 <<< 35)).onTm (fun t => { t with fly := [{ id := 3, flag := 4, stat := 5 }], regs := { t.regs with flags := [(4, { count := 1 })] } })
  let s := s.onTeam 0 1 (fun t => { t with st := 1, fly := [{ id := 2, win := true }], flt := { win := some { code := 0x10, rpm := 3 }, winPc := 0x20, winFly := 2 } })
  let s := s.onTeam 0 2 (fun t => { t with st := 2, fly := [{ id := 1 }], wait := some { kind := .named 2 false, dest := 10, fly := 1, pc := 0x40 } })
  let s := s.onTeam 0 3 (fun t => { t with st := 1, id := { cls := 1 }, sched := { readyFor := 4096 } })
  let s := (s.onTabs 0 (fun t => { t with bars := [(2, { phase := true })] }))
  s.onTm (fun t => { t with flt := { dbg := some 3 } })

/-- A FENCE that acquires at DEVICE has everything before it complete. -/
def fencing : State := S.onTm (fun t => { t with fly := [{ id := 3, fence := true, acq := 6, flag := 2 }] })

theorem met_team_events : let s := teamed
    ((fencing.team 0 0).fly.find? (fun f => f.id == 3)).any (fencing.canComplete 0 0) = true ∧
    ((s.team 0 1).fly.all (fun f => decide (f.held = [])) && ((withQueue s).die 0).fq.room 1) = true ∧
    ((s.team 0 0).fly.find? (fun f => f.id == 3)).any (s.canComplete 0 0) = true ∧
    (s.team 0 1).fly.all (fun f => !s.canComplete 0 1 f) = true ∧
    ((s.team 0 1).flt.win.isSome = true ∧ (s.team 0 1).flt.pf = false ∧ (s.team 0 1).st = 1 ∧ (s.team 0 3).flt.win = none) ∧
    s.relocks 0 = false ∧ (s.team 0 0).flt.win = none ∧ (s.team 0 0).path.atJoin = false ∧
    (s.team 0 2).wait.any (fun w => s.waitStatus 0 2 w == some 0 && !(s.team 0 2).varPending none (.s w.dest) 0) = true ∧ (s.team 0 3).wait = none ∧
    ((s.team 0 3).st = 1 ∧ 4096 ≤ (s.team 0 3).sched.readyFor ∧ (s.team 0 3).sched.promo < (s.team 0 3).id.cls) ∧
    ((s.team 0 0).flt.dbg = some 3 ∧ (s.team 0 3).flt.dbg = none ∧ (asTeam s 0 0).agentReady = true ∧ (s.team 0 0).flt.replay = false ∧
      decide ((asTeam s 0 0).joined = asTeam s 0 0) = true ∧ (s.team 0 0).path.mask.sect ≠ 0 ∧
      (match (asTeam s 0 0).fetchWord with | .ok w => stopsAt (wOpc w) | .error _ => false) = true) := by decide +kernel

/-- Die 1 is to go to step 0, die 2 relocks; sampling of core 0 is due. -/
def clocked : State :=
  let s := S.onDie 1 (fun d => { d with clk := { d.clk with next := some (0, 1) } })
  let s := s.onDie 2 (fun d => { d with clk := { d.clk with relock := some 2000, goal := (2, 0) } })
  let s := s.onDie 1 (fun d => { d with clk := { d.clk with owed := 10000000000 } })
  let s := s.onDie 3 (fun d => { d with clk := { d.clk with relock := some 0, counted := true } })
  (ticking s).onCore 0 (fun c => { c with ctl := { c.ctl with ssen := true, sscnt := 4096 } })

theorem met_clock_events : let s := clocked
    ((s.die 0).clk.relock = none ∧ cyclePrice s = (s.die 0).clk.owed ∧ (s.die 0).clk.next = none ∧ (s.cores.map Prod.fst).Nodup ∧ (s.die 2).clk.relock ≠ none) ∧
    ((s.die 1).clk.next = some (0, 1) ∧ (s.die 1).clk.relock = none ∧ cyclePrice s ≤ (s.die 1).clk.owed ∧ (s.die 0).clk.next = none) ∧
    ((s.die 2).clk.relock = some 2000 ∧ (s.die 3).clk.relock = some 0) ∧
    (s.ctrl.ptp.everLocked = false ∧ s.time = 0 ∧ ¬ (({ s with time := 2 ^ 40 } : State).time / 2 ^ 40 ≤ s.ctrl.epoch)) ∧
    ((s.core 0).ctl.ssen = true ∧ (s.core 0).ctl.ssper ≤ (s.core 0).ctl.sscnt ∧
      ((List.range 16).map (fun n => ((s.core 0).ctl.ssteam + n) % 16)).find? (fun i => (((s.core 0).team i).st == 1 || ((s.core 0).team i).st == 2) && !(s.core 0).ctl.issued.contains i) =
        some 0 ∧ (s.core 191).ctl.ssen = false) := by decide +kernel

/-- A launch record of four groups of one team of 32 lanes, with class and tenant as its queue has them. -/
def recordOf (groups : Nat) : Nat := 0x800 / 8 + groups * 2 ^ 192 + 2 ^ 224 + 2 ^ 236 + 2 ^ 248 + 5 * 2 ^ 265 + 2 * 2 ^ 279 + 2 ^ 307 + 2 ^ 333 + 2 ^ 347 + 0xFFF * 2 ^ 496

/-- Queue 9 of die 0 holds a record; die 1 has an active task 70 of four groups and sits beside an idle die 2; task 71 is over. -/
def dispatched : State :=
  let s := S.onDie 0 (fun d => { d with queues := [(9, { base := 0x300, szlog := 1, tenant := 1, cls := 0, en := true, tail := 1, times := [(0, 5)] }), (63, { base := 0x301, tenant := 1 })] })
  let s := s.onMem (fun m => m.writeLe 0x30_0000 64 (recordOf 4))
  let t : Task := { live := true, hdr := BitVec.ofNat 512 (recordOf 4), queue := 64, die := 1, tenant := 1 }
  let s := { s with tasks := [(70, t), (9 * 2 ^ 32 + 5, { t with hdr := 0 })] }
  let s := s.onDie 1 (fun d => { d with disp := { d.disp with active := [{ tag := 70, lo := 0, hi := 4 }] } })
  { s with time := 2000 }

theorem met_dispatch_events : let s := dispatched
    (s.fnOpen 0 = true ∧ s.fnOpen 16 = false ∧ s.ctrl.power ≠ 2 ∧ (s.tq 9).full = false ∧ (s.tq 9).en = true ∧ (regionOf s.ddr ((s.tq 9).slot (s.tq 9).tail)).plain = true ∧
      (s.tq 63).en = false) ∧
    (s.cands 3 = [] ∧ bestCand (s.cands 0) = some ((0, 1, 9), .record 9) ∧ (s.die 0).frozen = false ∧ s.ctrl.power = 0 ∧ s.malformed (s.headRecord 9) (s.tq 9).tenant = none ∧
      hWaitc (s.headRecord 9) = none) ∧
    ((bestCand (s.cands 1)).any (fun e => decide (e.2 = .task 70)) = true ∧ (s.die 1).disp.active.find? (fun y => y.tag == 70) = some { tag := 70, lo := 0, hi := 4 } ∧
      hCl (s.task 70).hdr = 0 ∧ (s.coreWithRoom (s.task 70).hdr (searchCores 1 (s.die 1).disp.lastCore)).isSome = true) ∧
    (s.time < hStart (s.task 70).hdr ∨ hStart (s.task 70).hdr = 0) ∧ hStart (BitVec.ofNat 512 (recordOf 4 + 2001 * 2 ^ 128)) = s.time + 1 ∧
    ((s.task (9 * 2 ^ 32 + 5)).live = true ∧ s.taskBusy (9 * 2 ^ 32 + 5) = false ∧ s.taskBusy 70 = true) ∧
    ((s.die 2).disp.idle = some 0 ∧ (s.die 2).disp.steal ≠ 0 ∧ 0 + (s.die 2).disp.steal ≤ s.time ∧ (s.die 2).frozen = false ∧
      (bestLoot ((((List.range 4).filter (fun e => e != 2 && !(s.die e).frozen)).map s.lootOf).flatten)).any (fun l => decide (l.cand = .task 70 ∧ l.victim = 1)) = true) := by
  decide +kernel

/-- The record of queue 9 is all that die 2 can steal; task 70 is of a cluster set of two groups with barrier 7. -/
theorem met_dispatch_kinds : let s := dispatched.onDie 1 (fun d => { d with disp := { d.disp with active := [] } })
    let h := BitVec.ofNat 512 (recordOf 4 + 2 ^ 57 + 2 ^ 60 + 2 ^ 332)
    let u : State := { dispatched with tasks := [(70, { (dispatched.task 70) with hdr := h })] }
    ((bestLoot ((((List.range 4).filter (fun e => e != 2 && !(s.die e).frozen)).map s.lootOf).flatten)).any (fun l => decide (l.cand = .record 9 ∧ l.victim = 0)) = true ∧
      ([0, 1, 2, 3].all (fun e => (s.die e).disp.active.all (fun a => a.tag != 9 * 2 ^ 32))) = true) ∧
    (hCl h ≠ 0 ∧ (bestCand (u.cands 1)).any (fun e => decide (e.2 = .task 70)) = true ∧ (u.die 1).clk.relock = none ∧ (u.die 1).frozen = false) := by decide +kernel

/-- Group 0 of core 0 belongs to task 70 and is being saved with its team HALTED; a record of it is pending; a saved image stands at 0x40_0100. -/
def commanded : State :=
  let s := (withQueue S).onDie 0 (fun d => { d with fq := { d.fq with waiting := [{ words := [0] }] }, tlb := [{ tenant := 1, vpn := 3 }] })
  let s := s.onGroup 0 0 (fun g => { g with tag := 70, saving := true })
  let s := s.onTm (fun t => { t with st := 4, id := { t.id with tag := 70 } })
  let s := s.onDie 1 (fun d => { d with fq := { d.fq with waiting := [{ words := [0, 0] }] } })
  let s := s.onDie 2 (fun d => { d with cmd := { d.cmd with saving := true } })
  { s with tasks := [(70, { live := true, tenant := 1 })] }

theorem met_command_words : let s := commanded
    ((s.die 0).fq.waiting = [{ words := [0] }] ∧ (s.die 0).fq.en = true ∧ (s.die 0).fq.used + 1 ≤ 1024 ∧ (s.die 1).fq.en = false ∧ (s.die 3).fq.waiting = []) ∧
    (let w := (1#128 <<< 127) ||| 70#128;
      w.extractLsb' 40 85 = 0 ∧ w.getLsbD 127 = true ∧ (s.task (w.extractLsb' 0 40).toNat).live = true ∧ (s.task 71).live = false) ∧
    (let w := (1#256 <<< 255) ||| (70#256 <<< 128);
      w.extractLsb' 168 85 = 0 ∧ w.getLsbD 255 = true ∧ (s.die 0).cmd.saving = false ∧ (s.cores.map Prod.fst).Nodup ∧ (w.extractLsb' 128 40).toNat = 70 ∧
        dieOfCore 0 = 0 ∧ (0, s.grpOf) ∈ (s.core 0).resident ∧ s.grpOf.tag = 70 ∧ (s.cores.all (fun c => c.2.resident.all (fun g => g.2.tag != 71))) = true ∧
        (s.die 2).cmd.saving = true) := by decide +kernel

/-- A team of the group waits for its record, which RESOLVE names; the area at 0x40_0000 lists one image of group 0 of task 70 (17 R393). -/
def resolvable : State :=
  let s := stopped1.onMem (fun m => m.writeLe 0x40_0000 16 (1 + 256 * 2 ^ 64))
  let s := s.onMem (fun m => m.writeLe 0x40_0100 96 (recordOf 4 + (grefOf 70 0).toNat * 2 ^ 512 + 2 ^ 576 + 2 ^ 584 + 1024 * 2 ^ 592 + 1200 * 2 ^ 672 + 70 * 2 ^ 704))
  { s with tasks := [(70, { live := true, tenant := 1, saved := [0] })] }

theorem met_resolve_resume_save : let s := resolvable
    (let w := (1#64 <<< 63) ||| 1031#64;
      w.extractLsb' 34 28 = 0 ∧ w.getLsbD 63 = true ∧ (w.extractLsb' 32 2).toNat ≤ 1 ∧
        ((s.die 0).fq.recs.find? (fun r => r.pend && r.handle.toNat == (w.extractLsb' 0 32).toNat)).any (fun r =>
          decide (r.agent = 0 ∧ (s.team r.core r.unit).id.gref = r.gref ∧ (s.team r.core r.unit).st ≠ 0 ∧ (s.team r.core r.unit).flt.pf = true)) = true ∧
        ((s.die 1).fq.recs.all (fun r => !r.pend)) = true) ∧
    (let w := (1#128 <<< 127) ||| 0x40_0000#128;
      w.extractLsb' 64 61 = 0 ∧ w.getLsbD 127 = true ∧ s.directory (w.extractLsb' 0 64).toNat = some [0x40_0100] ∧ s.directory 0x50_0000 = none ∧
        (imageMap (s.readBB 0x40_0100 256)).tag = 70 ∧ (imageMap (s.readBB 0x40_0100 256)).ok (s.readBB 0x40_0100 256) = true ∧
        (imageMap (s.readBB 0x40_0100 256)).gref.toNat / 2 ^ 32 = 0 ∧ (s.task 70).live = true ∧ (s.task 70).killed = false ∧ 0 ∈ (s.task 70).saved) ∧
    ([0, 2, 3].all (fun (b : Nat) => let w : Word := (1#64 <<< 63) ||| BitVec.ofNat 64 (b * 2 ^ 32 + 1031);
      w.extractLsb' 34 28 == 0 && w.getLsbD 63 && (w.extractLsb' 32 2).toNat == b)) = true ∧
    (regionOf s.ddr (recordByte s 0 { handle := 1031, pend := true, core := 0, unit := 1, gref := 0x77, code := 0x0E })).plain = true ∧
    (let u := (s.onDie 0 (fun d => { d with disp := { d.disp with active := [{ tag := 70, lo := 4, hi := 4, images := [0x40_0100] }] } }));
      (bestCand (u.cands 0)).any (fun e => decide (e.2 = .task 70)) = true ∧ ((List.range 4).all (fun d => (u.die d).fq.acts.isEmpty)) = true ∧
      (imageMap (u.imageAt 0x40_0100)).ok (u.imageAt 0x40_0100) = true ∧
      ((List.range 8).all (fun n => rdBB (u.imageAt 0x40_0100) ((imageMap (u.imageAt 0x40_0100)).slots + 32 * n) 8 == 0)) = true ∧
      ((searchCores 0 (u.die 0).disp.lastCore).findSome? (fun k => let m := imageMap (u.imageAt 0x40_0100)
        if u.entriesFree k (m.entries (u.imageAt 0x40_0100)) && u.setFits 0 (clusterOf k) m then (u.room k m.hdr).map (fun r => (k, r)) else none)).isSome = true) ∧
    (commanded.stopped 0 = false ∧ commanded.savable 0 0 = true ∧ commanded.savable 0 1 = false) ∧
    ((1#128 <<< 127).getLsbD 127 = true ∧ (1#128 <<< 127).extractLsb' 76 41 = 0) := by decide +kernel

/-- R342: no access uses a translation, and one that is held behind the range guard. -/
theorem met_invalidations : let held := commanded.onTm (fun t => { t with fly := [{ id := 3, held := [{ lane := 0, act := .store [1], bytes := [{ dev := none, pa := 0x300 }] }] }] })
    ((commanded.die 0).cmd.inval.getLsbD 127 = false ∧ commanded.usersOf (fun _ => true) = []) ∧
    (held.usersOf (fun _ => true)).any held.stillUsing = true ∧ (0#2 = (1#128 <<< 127).extractLsb' 125 2 ∧ 1#2 = (5#128 <<< 125).extractLsb' 125 2 ∧ 2#2 = (3#128 <<< 126).extractLsb' 125 2) := by
  decide +kernel

/-- Copy 1 of core 0 has its last 17 bytes before it, from 0x100 to 0x600; copy 2 is a collective of 4 words on context 6, copy 3 a matched one. -/
def copying : State :=
  let c : Copy := { id := 1, sd := 0x600, sa := 0x100, sb := 0xC000_0000, total := 273, prog := 256, k := 2 }
  let e : Copy := { id := 2, kind := 3, sd := 0x100, sa := 0, sb := 0x0000_0600_0000_0004, total := 16, ty := 8, leaves := [(0, leafAt 0x30_0000 0 0 0 0)] }
  S.onCore 0 (fun x => { x with copies := [c, e, { e with id := 3, matched := true }, { e with id := 4, since := 5, leaves := [(0, winBase 0 + 0xE3)] }] })

theorem met_copy_blocks : let s := copying
    (s.stopped 0 = false ∧ (s.die 0).clk.relock = none ∧ ((s.core 0).copies.all (fun c => !s.earlierHeld 0 c.iss)) = true ∧ ((s.core 0).copies.find? (fun c => c.id == 1)).any (fun c => decide (c.kind = 0 ∧ c.pend = false ∧ c.swzMode = 0 ∧ c.prog ≠ 0 ∧ c.srcBuf = [] ∧ c.dstBuf = [] ∧
      c.prog < c.total ∧ c.sd.toNat + c.total ≤ ((s.core 0).group c.iss.grp).size ∧ c.sa.toNat + c.total ≤ ((s.core 0).group c.iss.grp).size ∧
      ((s.core 0).group c.iss.grp).base + ((s.core 0).group c.iss.grp).size ≤ 0x30_0000) && c.ssp && c.dsp) = true ∧ s.mem.bad = []) ∧
    (s.core 0).hasChannel 1 = true ∧ ({ s.core 0 with copies := (List.range 5).map (fun i => { id := i }) } : Core).hasChannel 4 = false ∧
    ((s.core 0).copies.find? (fun c => c.id == 9) = none ∧ ((s.core 0).copies.find? (fun c => c.id == 2)).any (fun c => decide (c.kind = 3)) = true) := by decide +kernel

theorem met_collective_events : let s := copying
    let place := fun c i j => s.collByte c (c.sd.toNat + i * (tyWidth c.ty / 8) + j)
    ((s.core 0).copies.find? (fun c => c.id == 2 && c.kind == 3 && !c.matched)).any (fun c => !s.earlierColl c && !s.collWaits 0 c && (s.coverOf (s.collBytes c c.sd.toNat)).isNone) = true ∧
    ((s.core 0).copies.find? (fun c => c.id == 3)).any (fun c => !s.collWaits 0 c) = true ∧
    ((s.core 0).copies.find? (fun c => c.id == 4 && c.kind == 3 && !c.matched)).any (fun c => s.earlierColl c && (s.coverOf (s.collBytes c c.sd.toNat)).isSome && (s.freeGuard 0).isSome) = true ∧
    ((s.core 0).copies.find? (fun c => c.id == 3 && c.kind == 3 && c.matched)).any (fun c => c.op != 3 && c.count == 4 && tyWidth c.ty / 8 == 4 &&
      (List.range 4).all (fun i => (List.range 4).all (fun j => (place c i j).any (fun b => b.dev.isNone && (regionOf s.ddr b.pa).plain && b.pa == 0x30_0100 + 4 * i + j)))) = true ∧
    ((s.core 191).copies.all (fun c => c.kind != 3)) = true := by decide +kernel

/-! The matrix unit. -/

def iss0 : Issuer := { tag := 0, tenant := 1, fly := 3 }

/-- The FIFO holds these commands and nothing is in the array. -/
def fifoOf (s : State) (xs : List MatOp) : State := s.onMat 0 (fun m => { m with fifo := xs.map (fun op => { op := op, iss := { iss0 with gref := s.tm.id.gref } }) })

theorem met_fifo_heads :
    ([MatOp.none_, .wbinv 7, .wbld 7 0 0 0x805, .azero 15, .aprom 0 64, .ard 15 10 62 3, .awr 0 62 [(0, 5), (1023, 6)], .adrn true 4 0 0, .mma true false 5 0 1 0 0x0070_0010] : List MatOp).all
      (fun op => let s := fifoOf S [op]
        !s.stopped 0 && (s.core 0).mat.mmas.isEmpty && (s.core 0).mat.drain.isNone && match (s.core 0).mat.fifo with
        | [c] => (match op with
          | .ard _ v _ lanes => (s.team 0 c.iss.slot).id.gref == c.iss.gref && (List.range 1024).all (fun l => !lanes.getLsbD l || !(s.team 0 c.iss.slot).varPending none (.v v) l)
          | .awr _ _ cells => decide ((cells.map Prod.fst).Nodup) && cells.all (fun x => decide (x.1 < 1024))
          | .mma _ _ code _ _ a x => !s.mmaHeld 0 c code a x && decide (((s.core 0).group c.iss.grp).base + a.toNat + aBytes code (x.extractLsb' 0 16).toNat ≤ 0x30_0000)
          | _ => true)
        | _ => false) = true ∧
    (S.core 0).mat.fifo = [] ∧ (let s := (fifoOf S [.azero 0]).onMat 0 (fun m => { m with drain := some { cmd := { op := .none_, iss := {} } } });
      ((s.core 0).mat.mmas.isEmpty && (s.core 0).mat.drain.isNone) = false ∧ (s.core 0).mat.fifo = [{ op := .azero 0, iss := { iss0 with gref := s.tm.id.gref } }]) := by decide +kernel

/-- An MMA, a load and a plain drain of words to the scratchpad are under way on core 0. -/
def arrayed : State :=
  let d : BitVec 512 := BitVec.ofNat 512 (0x120 + 256 * 2 ^ 64 + 0x4000 * 2 ^ 448)
  S.onMat 0 (fun m => { m with mmas := [{ cmd := { op := .mma true false 5 2 0 0 0x0070_0010, iss := iss0 } }], loads := [{ op := .wbld 7 0x2000 0x2000 0x805, iss := iss0 }]
                               drain := some { cmd := { op := .adrn true 4 0x40 d, iss := iss0 } } })

theorem met_array_events : let s := arrayed
    ((s.core 0).mat.mmas.map (fun r => r.cmd.op) = [.mma true false 5 2 0 0 0x0070_0010] ∧ (s.core 1).mat.mmas = []) ∧
    ((s.core 0).mat.loads.map (fun c => c.op) = [.wbld 7 0x2000 0x2000 0x805] ∧ (s.die 0).clk.relock = none ∧ (s.core 1).mat.loads = []) ∧
    (s.core 0).mat.drain.any (fun dr => match dr.cmd.op with
      | .adrn _ n _ d => decide (dr.pend = false ∧ dr.ys = [] ∧ dr.g = 0 ∧ dr.stat = 0 ∧ dPlain d = true ∧ dDspace d = true ∧ dAdd d = false ∧ dRes d = 0 ∧ dOutf d ≠ 7 ∧
          ((s.core 0).tile n).pz = [] ∧ 256 ≤ dStride d ∧ dDst d + 63 * dStride d + 256 = ((s.core 0).group dr.cmd.iss.grp).size ∧
          ((s.core 0).group dr.cmd.iss.grp).base + ((s.core 0).group dr.cmd.iss.grp).size ≤ 0x30_0000 ∧ (s.core 0).tabs.guard = [])
      | _ => false) = true ∧ (s.core 191).mat.drain = none := by decide +kernel

/-- The last granules of a plain drain with add-on-store into page 2, and of a tile into the last row of page 1; one to no page at all; a load of
an image whose pages no copy writes. -/
theorem met_last_granules : let at_ := fun (d : Nat) => let dr : DrainRun := { cmd := { op := .adrn false 4 0x40 (BitVec.ofNat 512 d), iss := iss0 }, g := 15, ys := [0] }
      ((pagedAt 0).onMat 0 (fun m => { m with drain := some dr }), dr, BitVec.ofNat 512 d)
    let p := at_ (0x60 + 128 * 2 ^ 64 + 0x2_0000 * 2 ^ 448 + 7)
    let q := at_ (5 + 0x400 * 2 ^ 64 + 0x1_F000 * 2 ^ 448)
    let r := at_ (5 + 0x400 * 2 ^ 64 + 0x9_0000 * 2 ^ 448)
    ([p, q, r].all (fun e => e.1.drainFree 0 e.2.1 e.2.2)) = true ∧
    (dPlain p.2.2 = true ∧ dDspace p.2.2 = false ∧ dEl p.2.2 = 2 ∧ dAdd p.2.2 = true ∧ ([(48, 48), (63, 63)].all (fun e => [0, 1].all (fun b =>
      (match p.1.drainByte 0 p.2.1.cmd false true true ((dDst p.2.2 + e.1 * dStride p.2.2 + e.2 * 2 + b) % 2 ^ 64) with
        | .ok x => decide (x = { pa := 0x22_0000 + e.1 * 128 + e.2 * 2 + b }) && (regionOf p.1.ddr x.pa).plain && !p.1.guarded x && !p.1.mem.isBad x.pa
        | .error _ => false)))) = true) ∧
    (dPlain q.2.2 = false ∧ dOutf q.2.2 = 5 ∧ (match q.1.granulePlace 0 q.2.1.cmd q.2.2 15 with
      | .ok (none, pay, ent) => decide (pay + 256 ≤ ent) && (List.range 256).all (fun i => (regionOf q.1.ddr (pay + i)).plain) && (regionOf q.1.ddr ent).plain && q.1.mem.bad.isEmpty &&
          q.1.cores.all (fun c => c.2.tabs.guard.isEmpty)
      | _ => false) = true) ∧
    (match r.1.granulePlace 0 r.2.1.cmd r.2.2 15 with | .ok _ => false | .error _ => true) = true ∧
    arrayed.imageGuarded 1 0 (imageChunks 0x2000 0x2000 4) = false := by decide +kernel

/-- The drain may go on, its tile has no poison after promotion; and one that releases after what its team has held waits (R227). -/
theorem met_drains : let s := arrayed
    (s.core 0).mat.drain.any (fun dr => match dr.cmd.op with
      | .adrn _ n _ d => s.drainFree 0 dr d && !dRelease d && decide (((s.core 0).tile n).promote.1.pz = []) &&
          dRelease (d ||| (1#512 <<< 12)) && (s.onTm (fun t => { t with fly := [{ id := 1, held := [{ lane := 0, act := .store [1], bytes := [] }] }] })).earlierHeld 0 dr.cmd.iss
      | _ => false) = true ∧
    (let r := s.onDie 0 (fun d => { d with clk := { d.clk with relock := some 2000 } });
      (r.die (dieOfCore 0)).clk.relock ≠ none ∧ r.stopped 0 = false) ∧
    (let r := s.onCore 0 (fun c => { c with ctl := { c.ctl with stopped := true } });
      r.stopped 0 = true ∧ (r.core 0).mat.mmas.map (fun m => m.chunks) = [0]) := by decide +kernel

/-! Grid barriers, the host, links. VF 1 is bound to tenant 1, VF 15 to tenant 2; device 0 is this one and device 255 a member of grid 0. -/

def hosted : State :=
  let s := pagedAt 0
  { s with io := { s.io with vfb := [(0, (1#64 <<< 63) ||| (1#64 <<< 55)), (14, (1#64 <<< 63) ||| (2#64 <<< 55))], grids := [(0, { map := 1#256 ||| (1#256 <<< 255) })], ctxs := [(1, 5)]
                             imports := [(15, { src := 1#256 <<< 255, en := true, tenant := 1, limit := 0x40_0000, base := 0x30_0000 })] } }

/-- The host may write its mailbox: nothing is posted there. -/
theorem met_mailbox_writes : hosted.ctrl.boot ≠ 0 ∧ hosted.pending 0 = false ∧
    (let s : State := { hosted with ctrl := { hosted.ctrl with mbox := [(0, 1#64 <<< 63)] } }; s.pending 0 = true) ∧
    (mailAsk (.svnset 0 5 ((List.range 4).map (fun i => Tbl.get 0 hosted.ctrl.mreq i)))).any (fun e => decide (e.1 = 0 ∧ e.2.1 = 5 ∧ e.2.2.2.code = 0x13)) = true ∧
    0x14 ∉ [0x01, 0x02, 0x03, 0x10, 0x11, 0x12, 0x13, 0x20, 0x21, 0x22, 0x40, 0x41, 0x42, 0x43] := by decide +kernel

theorem met_grid_messages : let g : Grid := Tbl.get {} hosted.io.grids 0
    hosted.countsGrid 0 = true ∧ 255 ∈ g.members ∧ g.bar.stat = 0 ∧ 254 ∉ g.members := by decide +kernel

theorem met_host_registers : let s := hosted
    (vfBound (s.binding 0) = true ∧ s.tenantResident (vfTenant (s.binding 0)) = true ∧ vfBound (s.binding 14) = true ∧ s.tenantResident (vfTenant (s.binding 14)) = false ∧ vfBound (s.binding 1) = false) ∧
    (s.ctrl.boot = 7 ∧ s.ctrl.power ≠ 2 ∧ (State.reset.ctrl.boot = 7)) ∧ (vfTenant (255#64 <<< 55) = 0xFF ∧ vfTenant (2#64 <<< 55) ≠ 0xFF ∧ (255#128 <<< 76).extractLsb' 76 8 = 0xFF) := by
  decide +kernel

theorem met_host_memory : let s := hosted
    (s.fnOpen 0 = true ∧ s.fnOpen 1 = true ∧ s.fnOpen 2 = false ∧ bar4Size 0 < 2 ^ 42 - 7 + 8 ∧ bar4Size 16 < 2 ^ 39 - 7 + 8) ∧
    ((List.range 8).all (fun i => s.pfByte (0x7F_FFFF_FFF8 + i)) = true ∧ s.pfByte (0x7F_FFFF_FFFC + 7) = false) ∧
    (s.vfBytes (vfTenant (s.binding 0)) 0x2_FFF8 8 true false).isSome = true ∧ s.vfBytes (vfTenant (s.binding 0)) 0x3_FFFC 8 true false = none ∧
    (let c := s.onTabs 0 (fun t => { t with guard := [(0, { v := true, base := 0, last := 256 })] });
      c.guarded { pa := winBase 0 } = true ∧ s.guarded { pa := winBase 0 } = false) ∧
    ((s.vfBytes (vfTenant (s.binding 0)) 0x2_FFF8 8 false true).any (fun e => !e.2 && e.1.all (fun b => b.dev.isNone && (regionOf s.ddr b.pa).plain) && decide ((e.1.map (fun b => b.pa)).Nodup))) = true := by
  decide +kernel

/-- A data flit with SEQ 0 on channel 5, one out of order, and one whose CRC is spoilt. -/
def flit0 : List Byte := mkFlit (5 * 2 ^ 35 + 2 ^ 32) [1]
def flit9 : List Byte := mkFlit (9 * 2 ^ 52 + 2 ^ 32) []

theorem met_link_events : let p : Port := {}
    (p.training = false ∧ flitOk flit0 = true ∧ fKind (flitHead flit0) = 1 ∧ fSeq (flitHead flit0) = (p.rxSeq + 1) % 4096 ∧ flitOk flit9 = true ∧
      fSeq (flitHead flit9) ≠ (p.rxSeq + 1) % 4096 ∧ flitOk (flit0.set 8 2) = false ∧ p.weak = [] ∧ ({ p with weak := [3] } : Port).weak ≠ [] ∧ ({ p with training := true } : Port).training = true) ∧
    ([RemoteKind.read, .write, .atom].all (fun k => let r : RemoteReq := { src := 255, tenant := 1, cls := 0, kind := k, pa := 0x3F_FFF8, len := 8, data := leBytes 8 5, op := 0, ty := 6, x := 1, y := 0, tier := 0 }
      hosted.accepts r && (List.range 8).all (fun i => (regionOf hosted.ddr (r.pa + i)).plain && !hosted.mem.isBad (r.pa + i)) && !hosted.accepts { r with pa := 0x3F_FFF9 })) = true ∧
    ((Tbl.get {} State.reset.ctrl.dravim 0 : Dravim).weak = [] ∧
      (let s : State := { State.reset with ctrl := { State.reset.ctrl with dravim := [(13, { weak := [0] })] } };
        (Tbl.get {} s.ctrl.dravim 13 : Dravim).weak ≠ [] ∧ s.dieStopped (dravimEnd 13) = false)) ∧
    (let r : RemoteReq := { src := 255, tenant := 1, cls := 0, kind := .read, pa := 0x30_0000, len := 8, data := [], op := 0, ty := 6, x := 0, y := 0 };
      hosted.ctrl.power ≠ 2 ∧ ({ r with dest := some 7 } : RemoteReq).dest ≠ some hosted.io.domidx ∧ ({ r with dest := some 0 } : RemoteReq).dest = some hosted.io.domidx) ∧
    (let p : Port := { queued := [{ vc := 4, dev := 1, tenant := 1, cls := 1 }, { vc := 4, dev := 1, tenant := 1, cls := 0 }] };
      p.replay.length < 512 ∧ flitOk (mkFlit 0 []) = true ∧ fKind (flitHead (mkFlit 0 [])) = 0 ∧ fAckv (flitHead (mkFlit 0 [])) = false ∧
        p.queued.all (fun g => decide (g.vc < 6) && !(fStop (flitHead (mkFlit 0 []))).testBit g.vc) = true ∧
        fAckv (flitHead (mkFlit (2 ^ 39) [])) = true ∧ fNak (flitHead (mkFlit (3 * 2 ^ 38) [])) = true) ∧
    (hosted.core 0).copies = [] ∧ ((copying.core 0).copies.any (fun c => c.kind == 3 && (copying.ctxMembers c.ctx).contains 0)) = true ∧ (copying.die 0).fq.base = 0 := by decide +kernel

/-! The mailbox and the controller. -/

def readyB (s : State) (i : Instr) : Bool := (mailAsk i).any (fun e => decide (e.1 < 18) && s.mailOpen e.1 && !s.pending e.1 && (s.refuses e.2.2.2 e.1 (e.2.2.1.take 4096)).isNone)

/-- Before the tag of a request: its payload as little-endian words of 4 bytes. -/
def w4 (xs : List Nat) : List Byte := xs.flatMap (leBytes 4)

/-- A machine whose store 0 is kept and VF 1 is tenant 1's. -/
def managed : State :=
  let s := hosted
  { s with ctrl := { s.ctrl with stores := [(0, { st := 1, recs := [(0, 0, (1#512 <<< 292), [])] })], errors := [{ kind := 1 }] } }

theorem met_mailbox_commands :
    ([.mailboxId 1 0xFFFF [], .fwload 0 1 (w4 [0, 8, 5]) [], .fwload 0 1 (w4 [0, 8]) (w4 [5, 6]), .fwload 0 1 (w4 [0, 3, 5]) [], .cert 16 1 (w4 [0]), .step 0 1 (w4 [0x303, 0]), .step 0 1 (w4 [0x304, 0]),
      .limitsRead 0 1 (w4 [0, 0, 0]), .limitsSet 0 1 (w4 [1, 80, 2100]), .limitsSet 0 1 (w4 [1, 106, 900]), .stateActive 0 1 (w4 [0, 0]), .stateQuiesce 0 1 (w4 [1, 0]), .stateStandby 0 1 (w4 [2, 0]),
      .stateWarmReset 0 1 (w4 [3, 0]), .svnset 0 1 (w4 [0]), .mailboxTime 1 1 [], .errors 0 1 (w4 [0]), .clear 0 1 (w4 [3, 0]), .clear 0 1 (w4 [4, 0]), .caplist 1 1 [], .capget 1 1 (w4 [0, 0]),
      .capget 0 1 (w4 [1, 0]), .capget 0 1 (w4 [2, 0]), .capack 1 1 (w4 [0, 0]), .capack 0 1 (w4 [0x100, 0]), .capack 0 1 (w4 [0, 0]), .capack 15 1 (w4 [0x100, 0]), .capfreeze 0 1 [], .capfreeze 17 1 [],
      .step 17 1 (w4 [0x303, 0])] : List Instr).all
      (fun i => readyB managed i == (match i with | .cert .. => false | _ => true)) = true ∧
    readyB managed (.cert 15 1 (w4 [0])) = true ∧ (managed.cores.map Prod.fst).Nodup ∧ ({ State.reset with ctrl := { State.reset.ctrl with power := 1 } } : State).quiet = true := by decide +kernel

theorem met_mailbox_refusals :
    (managed.mailOpen 2 = false ∧ ({ managed with ctrl := { managed.ctrl with mbox := [(1, 1#64 <<< 63)] } } : State).pending 1 = true) ∧
    (let s : State := { managed with ctrl := { managed.ctrl with boot := 8 } };
      s.mailOpen 0 = true ∧ s.pending 0 = false ∧ s.ctrl.boot ≠ 7 ∧ ((mailAsk (.svnset 0 1 (w4 [0]))).any (fun e => e.2.2.2.early == 0)) = true ∧
        ((mailAsk (.cert 0 1 (w4 [0]))).any (fun e => e.2.2.2.early == 2)) = true ∧ ((mailAsk (.mailboxId 0 1 [])).any (fun e => e.2.2.2.early == 1)) = true) ∧
    (managed.mailOpen 1 = true ∧ managed.pending 1 = false ∧ ((mailAsk (.svnset 1 1 (w4 [0]))).any (fun e => e.2.2.2.operator)) = true ∧
      ((mailAsk (.svnset 0 1 [1, 2, 3])).any (fun e => decide (3 < e.2.2.2.need))) = true ∧ ((mailAsk (.step 0 1 (w4 [0, 0x0100_0000]))).any (fun e => e.2.2.2.zeros.any (fun j => (w4 [0, 0x0100_0000]).getD j 0 != 0))) = true) := by
  decide +kernel

theorem met_sensor_periods : let s : State := { State.reset with ctrl := { State.reset.ctrl with waiting := [{ fn := 0, code := 0x10, tag := 1, req := w4 [0x303, 0] }] } }
    State.reset.ctrl.boot = 7 ∧ State.reset.ctrl.power ≠ 2 ∧ State.reset.ctrl.waiting = [] ∧ (∀ x ∈ [1100, 951, 900, 0], x ≤ 1100) ∧ State.reset.ctrl.limit < 2101 ∧ (State.reset.die 0).clk.power ≤ 3 ∧
      State.reset.ctrl.freezes = [] ∧ State.reset.ctrl.assembled = false ∧ State.reset.ctrl.sensed + 100000 ≤ ({ State.reset with time := 100000 } : State).time ∧
      State.reset.time < State.reset.ctrl.sensed + 100000 ∧ (∃ x ∈ [0, 0, 0, 1101], 1100 < x) ∧ s.ctrl.boot = 7 ∧ s.ctrl.waiting = [{ fn := 0, code := 0x10, tag := 1, req := w4 [0x303, 0] }] := by decide +kernel

/-- Errors of core 0: structure 1 has counted 15, structure 14 an old one, structure 3 holds a row to spare and structure 8 is lasting with both spares used. -/
def erring : State :=
  let s := S.onCore 0 (fun c => { c with ctl := { c.ctl with errs := [(1, { ce := 15 }), (14, { ue := 1, times := [0] }), (3, { rows := [6143] }), (8, { last := true }), (7, { last := true }), (0, { rows := [0] })], spares := [(8, 2)] } })
  s.onCore 191 (fun c => { c with ctl := { c.ctl with winStart := 1 } })

theorem met_error_events : let s := erring
    ((s.core 0).rcd.frz = false ∧ (s.core 0).vregOwner 0 = some (0, 0, 0) ∧ (s.team 0 0).st = 1) ∧
    (regionOf s.ddr 0x30_0000 = .hbm ∧ regionOf s.ddr 0x100_0000_0000 = .ddr ∧ s.time / 10000000000 ≤ s.ctrl.memWin) ∧
    (s.time < (s.core 191).ctl.winStart + (s.core 191).ctl.errwin * 1000000 ∧ ¬ (({ s with time := 10000000000 } : State).time < (s.core 0).ctl.winStart + (s.core 0).ctl.errwin * 1000000) ∧
      (s.core 0).ctl.errs.Pairwise (fun a b => a.1 ≠ b.1)) ∧
    ((s.errOf 0 14).times = [0] ∧ (s.errOf 0 0).times = [] ∧ s.time < 0 + 86400000000000) ∧
    ((s.errOf 0 7).last = true ∧ Tbl.get 0 (s.core 0).ctl.spares 7 < 2 ∧ (s.errOf 0 8).last = true ∧ ¬ Tbl.get 0 (s.core 0).ctl.spares 8 < 2 ∧ (s.errOf 0 1).last = false) ∧
    ((s.errOf 0 3).rows.find? (fun r => !s.rowHeld 0 3 r) = some 6143 ∧ (s.errOf 0 0).rows.find? (fun r => !s.rowHeld 0 0 r) = none) := by decide +kernel

/-- A fatal condition meets a core, the root controller, and one that has stopped already; the dies that are I/O hear of it too (R321, R322). -/
theorem met_fatal_conditions : let s : State := { State.reset with ctrl := { State.reset.ctrl with freezes := [{ time := 0 }] } }
    (State.reset.core 191).rcd.frz = false ∧ State.reset.dieStopped 5 = false ∧ s.dieStopped 4 = false ∧ s.dieStopped 5 = false ∧
      ({ s with ctrl := { s.ctrl with ioFrozen := [4] } } : State).dieStopped 4 = true := by decide +kernel

theorem met_freeze_events : let f : Freeze := { time := 0 }
    let s : State := { State.reset with ctrl := { State.reset.ctrl with freezes := [f] }, time := 2000 }
    let r : State := s.onCore 0 (fun c => { c with rcd := { c.rcd with frz := true } })
    ((State.reset.core 191).rcd.frz = false ∧ (r.core 0).rcd.frz = true ∧ (State.reset.die 3).frozen = false ∧ State.reset.ctrl.freezes = []) ∧
    ((s.die 0).frozen = false ∧ (s.core 0).rcd.wptr < 4096 ∧ s.ctrl.freezes = [f]) ∧
    (({ s with time := 1999 } : State).time < f.time + 2000 ∧ (s.core 5).rcd.frz = false ∧ f.time + 2000 ≤ s.time ∧ s.ctrl.assembled = false ∧ s.ctrl.resetHeld = false ∧ f.cause ≠ 5) ∧
    (s.ctrl.trip = false ∧ (List.replicate 48 (0 : Byte)).length = 48) ∧ ((s.store 0).st ≠ 1 ∧ (managed.store 0).st = 1 ∧ (managed.store 1).st ≠ 1) := by decide +kernel

theorem met_resets : S.assembling = false ∧ (S.cores.map Prod.fst).Nodup ∧
    ({ State.reset with ctrl := { State.reset.ctrl with freezes := [{}] } } : State).assembling = true ∧
    ([9, 2, 3, 5, 6].map (fun b => ({ managed with ctrl := { managed.ctrl with boot := b }, time := 5 } : State).ctrl.boot)) = [9, 2, 3, 5, 6] ∧
    managed.ctrl.stores.Pairwise (fun a b => a.1 ≠ b.1) := by decide +kernel

/-! The step. -/

/-- Two teams of core 0 are selected: the one meets an instruction, the other a word that is none. -/
def stepping : State × State := ((base ((0x040#64 <<< 35) ||| 4#64)), base (0x0FF#64 <<< 35))

def runsB (s : State) : Bool :=
  let u := { s with cur := .team 0 0, selected := [] }
  let j := u.joined
  u.agentReady && j.agentReady && !j.tm.path.atJoin && decide (j.tm.flt.dbg = none) && match j.fetchWord with | .ok w => j.wordReady w | .error _ => false

theorem met_steps : runsB stepping.1 = true ∧ runsB stepping.2 = true ∧
    (match stepping.1.fetchWord with | .ok w => (match decode w with | .ok _ => true | .error _ => false) | .error _ => false) = true ∧
    (match stepping.2.fetchWord with | .ok w => (match decode w with | .ok _ => false | .error _ => true) | .error _ => false) = true ∧
    (match S.fetchPlace S.ck S.tm.id.tenant S.ipc with
      | .ok (b, _) => b.dev.isNone && (S.iLine S.ck (pageTag S.tm.id.tenant S.ipc.toNat) (b.pa / 128)).isNone && (List.range 8).all (fun i => decide (regionOf S.ddr (b.pa + i) = .hbm)) && !S.mem.unc b.pa 8
      | .error _ => false) = true := by decide +kernel

/-- A step from the placed machine goes on, so its state is one that a step has left; and the placed machine's cores are numbered. -/
theorem met_steps_go_on : (match step stepping.1 with | .next _ => true | _ => false) = true ∧ isEvent (.steal 3) = true ∧ (Instr.steal 3).wf = true ∧ (Instr.steal 4).wf = false ∧
    isEvent (.nop h0 ⟨0, 0, 0, 0, false, false, 0⟩) = false ∧ stepping.1.selected ≠ [] ∧
    (S.cores.all (fun c => decide (c.1 < 192) && c.2.teams.all (fun t => decide (t.1 < 16)) && c.2.ctl.errs.all (fun e => decide (e.1 < 15))) && S.tasks.all (fun t => decide (t.1 / 2 ^ 32 < 256))) = true ∧
    (match exec (.steal 4) State.reset with | .fault (.noSuchUnit _ 4) => true | _ => false) = true := by decide +kernel

theorem met_decode_encode : (wordsScalar.all (fun e => e.2.wf && encode e.2 == some e.1)) = true := by decide +kernel

/-! Where every form completes (the statement over forms). -/

/-- The group of `commanded` is to be saved into an area with room for it. -/
def savingTo : State := ((commanded.onGroup 0 0 (fun g => { g with size := 0, queues := [], nbar := 0 })).onTm (fun t => { t with st := 1, park := true, acc := false, regs := {}, live := 0 })).onDie 0 (fun d => { d with cmd := { d.cmd with preempt := (1#256 <<< 255) ||| (0x1000000#256 <<< 64) ||| 0x40_0000#256 } })

theorem met_forms_save : let s := savingTo
    s.stopped 0 = false ∧ s.savable 0 0 = true ∧
      (s.die 0).cmd.saveOff + (saveImage s 0 0).length ≤ ((s.die 0).cmd.preempt.extractLsb' 64 64).toNat := by decide +kernel

theorem met_forms_complete :
    ((hosted.fnOpen 0 = true ∧ 0x30_0000 + 64 ≤ bar4Size 0 ∧ (List.range 64).all (fun i => hosted.pfByte (0x30_0000 + i)) = true ∧ hosted.mem.unc 0x30_0000 64 = false) ∧
      (hosted.binding 1 = 0 ∧ vfBound (hosted.binding 1) = false) ∧ (Tbl.get {} hosted.io.grids 1 : Grid).holder = none ∧
      (Tbl.get {} hosted.io.imports 0 : Import).en = false) ∧
    (let w : BitVec 256 := (1#256 <<< 255) ||| (3#256 <<< 239) ||| (1#256 <<< 231) ||| (1#256 <<< 228) ||| (1#256 <<< 160) ||| (1#256 <<< 168);
      w.getLsbD 255 = true ∧ contextOk w.toNat = true) ∧
    (let s : State := { State.reset with ctrl := { State.reset.ctrl with freezes := [{ cause := 4 }] }, time := 2000 };
      s.ctrl.assembled = false ∧ (s.ctrl.freezes.map (fun g => g.cause)) = [4] ∧ (s.ctrl.freezes.map (fun g => g.time + 2000)) = [s.time] ∧ (s.store 0).st = 0 ∧
        s.ctrl.resetHeld = false ∧ (s.die 3).frozen = false) ∧
    (State.reset.ctrl.trip = false ∧ leNat (([0x10, 0x82, 0, 0] : List Byte).drop 2 |>.take 1) % 16 = 0 ∧ (withQueue S).tm.flt.win = none) ∧
    ((commanded.die 1).cmd.inval.getLsbD 127 = false ∧ (State.reset.core 7).rcd.frz = false) := by decide +kernel

end Sys2Proof.Tests
end

/-! Lane masks, predicate writes, the issue of a fixed-latency instruction, and ELECT. -/

namespace Sys2Proof.Machine

/-! Lane masks and lists of lanes. -/

theorem lt_of_mem_lanesOf {n l : Nat} {m : LaneBits} (h : l ∈ lanesOf n m) : l < 1024 :=
  BitVec.lt_of_getLsbD (List.of_mem_filter h)

/-- Lanes gathered one after another into a mask are in it beside those that were there before. -/
theorem getLsbD_foldl_lanes (ls : List Nat) (m : LaneBits) {l : Nat} (hl : l < 1024) :
    (ls.foldl (fun m l => m ||| (1#1024 <<< l)) m).getLsbD l = (m.getLsbD l || decide (l ∈ ls)) := by
  induction ls generalizing m with
  | nil => simp
  | cons k ks ih =>
    have hk : (1#1024 <<< k).getLsbD l = decide (l = k) := by
      rw [← BitVec.twoPow_eq, BitVec.getLsbD_twoPow]
      grind
    rw [List.foldl_cons, ih, BitVec.getLsbD_or, hk]
    simp [Bool.or_assoc]

theorem getLsbD_maskOf (ls : List Nat) {l : Nat} (hl : l < 1024) : (maskOf ls).getLsbD l = decide (l ∈ ls) := by
  rw [maskOf, getLsbD_foldl_lanes ls 0 hl]
  simp

theorem mem_of_getLsbD_maskOf {ls : List Nat} {l : Nat} (h : (maskOf ls).getLsbD l = true) : l ∈ ls := by
  simpa [getLsbD_maskOf ls (BitVec.lt_of_getLsbD h)] using h

/-! Register writes as later reads see them. -/

/-- A write of register `d` that register 0 discards (R43, R45). -/
theorem Tbl.get_set_unless_zero {α : Type} [DecidableEq α] (z : α) (t : Tbl α) (d r : Nat) (v : α) :
    Tbl.get z (if d = 0 then t else Tbl.set z t d v) r = if r = d ∧ r ≠ 0 then v else Tbl.get z t r := by
  by_cases hd : d = 0
  · rw [if_pos hd, if_neg (by omega)]
  · rw [if_neg hd, Tbl.get_set]
    by_cases hr : r = d
    · rw [if_pos hr, if_pos ⟨hr, by omega⟩]
    · rw [if_neg hr, if_neg (fun h => hr h.1)]

/-- A write of one register is pending in no other (R91). -/
theorem Team.varPending_cons_ne {t : Team} {r r' : RegName} {h : Hazard} {regs : TeamRegs} (hr : h.reg = r) (hne : r ≠ r') (id : Option Nat)
    (l : Nat) : Team.varPending { t with regs := regs, haz := h :: t.haz } id r' l = t.varPending id r' l := by
  simp [Team.varPending, hr, hne]

/-- A predicate write (R43, R91): p0 discards; where no variable-latency write is pending the lanes written hold the bits written, every
other lane and predicate stays, and no other register has a write pending that had none. -/
theorem State.wp_spec {s : State} (hg : s.isGath = false) (p : Nat) (lanes vals : LaneBits)
    (hs : ∀ l, lanes.getLsbD l = true → s.tm.varPending s.tm.due.2 (.p p) l = false) :
    onlyTeam s (s.wp p lanes vals) ∧ ∃ P haz, (s.wp p lanes vals).tm = { s.tm with regs := { s.tm.regs with p := P }, haz := haz } ∧
      (∀ q l, l < 1024 → (Tbl.get 0 P q).getLsbD l =
        if q = p ∧ q ≠ 0 ∧ lanes.getLsbD l = true then vals.getLsbD l else (Tbl.get 0 s.tm.regs.p q).getLsbD l) ∧
      ∀ r id l, r ≠ .p p → (s.wp p lanes vals).tm.varPending id r l = s.tm.varPending id r l := by
  obtain ⟨k, j, hc⟩ := State.cur_of_isGath hg
  unfold State.wp
  by_cases hp : p = 0
  · rw [if_pos hp]
    exact ⟨onlyTeam_refl s, s.tm.regs.p, s.tm.haz, rfl, fun q l _ => by rw [if_neg (by omega)], fun _ _ _ _ => rfl⟩
  · have hblocked : (lanesOf s.tm.id.lanes lanes).filter (fun l =>
        s.tm.varPending s.tm.due.2 (.p p) l && !Config.pick s.seq (10000000 + l)) = [] :=
      List.filter_eq_nil_iff.2 fun l hl => by simp [hs l (List.of_mem_filter hl)]
    have hput : lanes &&& ~~~maskOf [] = lanes := by
      rw [maskOf, List.foldl_nil, BitVec.ofNat_eq_ofNat, BitVec.not_zero, BitVec.and_allOnes]
    rw [if_neg hp, hc]
    simp only [State.tm_onTm, hblocked, hput]
    refine ⟨onlyTeam_onTm s _, _, _, rfl, fun q l hl => ?_, fun r id l hr => Team.varPending_cons_ne rfl hr.symm id l⟩
    rw [Tbl.get_set]
    by_cases hq : q = p
    · subst hq
      cases hm : lanes.getLsbD l <;> simp [-BitVec.getLsbD_eq_getElem, hp, hl, hm]
    · rw [if_neg hq, if_neg (fun h => hq h.1)]

/-! The issue of a fixed-latency instruction whose body writes registers alone. -/

section Fixed
variable {i : Instr} {s : State} (h : canIssue i s = true)
include h

theorem State.openIssue_regs : (s.openIssue (instrInfo i)).tm.regs = signalled i s := by
  rw [State.openIssue_tm h]; rfl

theorem State.openIssue_s : (s.openIssue (instrInfo i)).tm.regs.s = s.tm.regs.s := by
  rw [State.openIssue_regs h]; exact Team.signal_s ..

theorem State.openIssue_p : (s.openIssue (instrInfo i)).tm.regs.p = s.tm.regs.p := by
  rw [State.openIssue_regs h]; exact Team.signal_p ..

/-- What is settled before the issue of a fixed-latency instruction, its own write meets settled (R91). -/
theorem State.openIssue_settled {n : Nat} (hl : (instrInfo i).lat = .fixed n) {r : RegName} {l : Nat} (hs : settled s r l) :
    (s.openIssue (instrInfo i)).tm.varPending (s.openIssue (instrInfo i)).tm.due.2 r l = false := by
  have hd : dueOf i s ≠ none := by simp [dueOf, hl]
  rw [State.openIssue_tm h, Team.opened_varPending hd]
  exact hs

/-- A fixed-latency instruction whose body changes registers of the team and the record of results to come, and nothing else, leaves
those registers, goes on in line and is in flight. -/
theorem State.issue_fixed_spec {n : Nat} {uniform : Bool} {body : Body} {t : State} {regs : TeamRegs} {haz : List Hazard}
    (hl : (instrInfo i).lat = .fixed n) (hn : branchOpc (instrInfo i).opc = false) (hu : uniform = true → s.servedBy i ≠ 0)
    (hb : body (s.openIssue (instrInfo i)) = .ok t) (ht : onlyTeam (s.openIssue (instrInfo i)) t)
    (htm : t.tm = { (s.openIssue (instrInfo i)).tm with regs := regs, haz := haz }) :
    let u := s.issue i uniform false body
    onlyTeam s u ∧ keepsTeam s u ∧ advances s u ∧ inFlight i 0 s u ∧ u.tm.regs = regs := by
  obtain ⟨-, hst, hpk, hreplay, -, -, -⟩ := (canIssue_iff i s).1 h
  rw [State.openIssue_tm h] at htm
  have hm : t.tm.moves := by simp [Team.moves, htm, Team.opened, hst, hpk]
  obtain ⟨honly, hclosed⟩ := State.issue_spec h hu hb ht hm hn
  rw [Team.closed_fixed hl, htm] at hclosed
  refine ⟨honly, ?_, ?_, ?_, ?_⟩
  · rw [keepsTeam, hclosed, Team.opened, Team.signal_cases, ← hreplay]
  · simp [advances, hclosed, Team.opened]
  · simp [inFlight, entryOf, hclosed, Team.opened]
  · rw [hclosed]

end Fixed

/-! ELECT (R132). -/

/-- The index that ELECT writes: that of the first of these lanes, all ones when there is none. -/
def electedIndex : List Nat → Word
  | [] => 0xFFFF_FFFF_FFFF_FFFF
  | l :: _ => BitVec.ofNat 64 l

/-- The writes of ELECT for these lanes. -/
def State.elected (s : State) (o : FmtA) : List Nat → State
  | [] => s.ws o.d.toNat (electedIndex [])
  | l :: ls => (s.wp o.a.toNat (maskOf (l :: ls)) (maskOf [l])).ws o.d.toNat (electedIndex (l :: ls))

theorem exec_elect (h : Head) (o : FmtA) (s : State) :
    exec (.elect h o) s = .next (s.issue (.elect h o) false false (fun u => .ok (u.elected o (u.lanes h.guard)))) := by
  refine congrArg (fun body => Host.Outcome.next (s.issue (.elect h o) false false body)) (funext fun u => ?_)
  cases u.lanes h.guard <;> rfl

/-- ELECT reads the lanes it serves after the signal of its flag, which leaves them as they were. -/
theorem State.openIssue_electLanes {h : Head} {o : FmtA} {s : State} (hi : canIssue (.elect h o) s = true) :
    (s.openIssue (instrInfo (.elect h o))).lanes h.guard = s.lanesBy (.elect h o) :=
  State.openIssue_lanes hi

/-- The writes of ELECT where nothing is pending in their way: the index in the scalar, the predicate true in the first lane and false
in the others, every other register as before. -/
theorem State.elected_spec {s : State} (hg : s.isGath = false) (o : FmtA) (ls : List Nat)
    (hs : s.tm.varPending s.tm.due.2 (.s o.d.toNat) 0 = false)
    (hp : ∀ l ∈ ls, s.tm.varPending s.tm.due.2 (.p o.a.toNat) l = false) :
    onlyTeam s (s.elected o ls) ∧
      ∃ S P haz, (s.elected o ls).tm = { s.tm with regs := { s.tm.regs with s := S, p := P }, haz := haz } ∧
        (∀ r, Tbl.get 0 S r = if r = o.d.toNat ∧ r ≠ 0 then electedIndex ls else Tbl.get 0 s.tm.regs.s r) ∧
        ∀ q l, l < 1024 → (Tbl.get 0 P q).getLsbD l =
          if q = o.a.toNat ∧ q ≠ 0 ∧ l ∈ ls then decide (some l = ls.head?) else (Tbl.get 0 s.tm.regs.p q).getLsbD l := by
  cases ls with
  | nil =>
    obtain ⟨honly, haz, htm⟩ := State.ws_spec hg o.d.toNat (electedIndex []) hs
    exact ⟨honly, _, _, haz, htm, fun r => Tbl.get_set_unless_zero .., fun q l _ => by simp⟩
  | cons k ks =>
    obtain ⟨hwp, P, haz, htm, hP, hpend⟩ := State.wp_spec hg o.a.toNat (maskOf (k :: ks)) (maskOf [k])
      (fun l hl => hp l (mem_of_getLsbD_maskOf hl))
    set u := s.wp o.a.toNat (maskOf (k :: ks)) (maskOf [k])
    have hdue : u.tm.due = s.tm.due := by rw [htm]; rfl
    have hgu : u.isGath = false := by rw [onlyTeam_isGath hwp, hg]
    obtain ⟨hws, haz', htm'⟩ := State.ws_spec hgu o.d.toNat (electedIndex (k :: ks)) (by rw [hdue, hpend _ _ _ (by simp), hs])
    rw [htm] at htm'
    refine ⟨onlyTeam_trans hg hwp hws, _, P, haz', htm', fun r => Tbl.get_set_unless_zero .., fun q l hl => ?_⟩
    rw [hP q l hl, getLsbD_maskOf _ hl, getLsbD_maskOf _ hl]
    simp only [List.mem_singleton, List.head?_cons, Option.some.injEq, decide_eq_true_eq]

/-- Settles O9: the writes of ELECT meet nothing pending, and its issue leaves them as they are. -/
theorem electChoosesLowestLane : Obligations.ElectChoosesLowestLane := by
  intro s h o hi hs hp
  have hlat : (instrInfo (.elect h o)).lat = .fixed 8 := rfl
  obtain ⟨honly, S, P, haz, htm, hS, hP⟩ := State.elected_spec (State.openIssue_isGath hi) o (s.lanesBy (.elect h o))
    (State.openIssue_settled hi hlat hs) (fun l hl => State.openIssue_settled hi hlat (hp l hl))
  obtain ⟨hteam, hkeeps, hadv, hfly, hregs⟩ := State.issue_fixed_spec hi hlat rfl (uniform := false)
    (body := fun u => .ok (u.elected o (u.lanes h.guard))) (by simp) (by rw [State.openIssue_electLanes hi]) honly htm
  rw [State.openIssue_s hi] at hS
  rw [State.openIssue_p hi] at hP
  refine ⟨_, exec_elect h o s, hteam, hkeeps, hadv, hfly, ?_, fun r => ?_, fun q l hl => ?_⟩
  · rw [hregs, ← State.openIssue_regs hi, ← State.openIssue_s hi, ← State.openIssue_p hi]
  · rw [hregs, hS r]
    cases s.lanesBy (.elect h o) <;> rfl
  · rw [hregs, hP q l hl]

end Sys2Proof.Machine

/-! The ranking of TOPK and TOPKX, vector writes, and the issue of an instruction that writes registers alone. -/

namespace Sys2Proof.Machine

/-! The order of the ranking (R166): every element has a key, NaN above all others, and the ranking goes by key, then by index. -/

/-- A number as an extended real; a NaN has no value. -/
noncomputable def Fl.toEReal : Fl → EReal
  | .fin n m e => (((if n then -1 else 1) * (m * 2 ^ e) : ℝ) : EReal)
  | .inf n => if n then ⊥ else ⊤
  | .nan _ => 0

/-- A dyadic in multiples of 2^q, times 2^q, is its value. -/
theorem dyInt_mul_zpow (n : Bool) (m : Nat) {e q : Int} (hq : q ≤ e) :
    (dyInt n m e q : ℝ) * 2 ^ q = (if n then -1 else 1) * (m * 2 ^ e) := by
  have hpow : (2 : ℝ) ^ (e - q).toNat * 2 ^ q = 2 ^ e := by
    rw [← zpow_natCast, Int.toNat_of_nonneg (by omega), ← zpow_add₀ (by norm_num), Int.sub_add_cancel]
  cases n <;> simp [dyInt, mul_assoc, hpow]

/-- Dyadics compare as their multiples of a common power do. -/
theorem dyInt_lt_dyInt (n n' : Bool) (m m' : Nat) {e e' q : Int} (h : q ≤ e) (h' : q ≤ e') :
    dyInt n m e q < dyInt n' m' e' q ↔ (Fl.fin n m e).toEReal < (Fl.fin n' m' e').toEReal := by
  rw [Fl.toEReal, Fl.toEReal, EReal.coe_lt_coe_iff, ← dyInt_mul_zpow n m h, ← dyInt_mul_zpow n' m' h',
    mul_lt_mul_iff_left₀ (by positivity), Int.cast_lt]

/-- The comparison of numbers is that of their values. -/
theorem cmpFl_iff {x y : Fl} (hx : x.isNan = false) (hy : y.isNan = false) :
    (cmpFl x y < 0 ↔ x.toEReal < y.toEReal) ∧ (0 < cmpFl x y ↔ y.toEReal < x.toEReal) := by
  cases x with
  | nan => simp [Fl.isNan] at hx
  | inf a =>
    cases y with
    | nan => simp [Fl.isNan] at hy
    | inf b => cases a <;> cases b <;> simp [cmpFl, Fl.toEReal]
    | fin => cases a <;> simp [cmpFl, Fl.toEReal, -EReal.coe_mul]
  | fin n m e =>
    cases y with
    | nan => simp [Fl.isNan] at hy
    | inf b => cases b <;> simp [cmpFl, Fl.toEReal, -EReal.coe_mul]
    | fin n' m' e' =>
      rw [← dyInt_lt_dyInt n n' m m' (min_le_left e e') (min_le_right e e'),
        ← dyInt_lt_dyInt n' n m' m (min_le_right e e') (min_le_left e e')]
      simp only [cmpFl]
      split_ifs <;> omega

/-- The place of a value in the ranking: NaN behind every number, the numbers descending, or ascending under .min. -/
noncomputable def rankKey (t : Nat) (mn : Bool) (x : Nat) : WithTop EReal :=
  if tF.contains t then
    if (decodeFp t x).isNan then ⊤ else if mn then (decodeFp t x).toEReal else ((-(decodeFp t x).toEReal : EReal) : WithTop EReal)
  else
    let v : ℝ := toInt (isSigned t) (tyWidth t) x
    if mn then (v : EReal) else (-v : EReal)

theorem ranksBefore_iff (t : Nat) (mn : Bool) (x y : Nat) : ranksBefore t mn x y = true ↔ rankKey t mn x < rankKey t mn y := by
  unfold ranksBefore rankKey
  cases tF.contains t with
  | false => cases mn <;> simp
  | true =>
    cases hx : (decodeFp t x).isNan with
    | true => simp [hx]
    | false =>
      cases hy : (decodeFp t y).isNan with
      | true => cases mn <;> simp [hx, hy]
      | false =>
        obtain ⟨hlt, hgt⟩ := cmpFl_iff hx hy
        cases mn <;> simp [hx, hy, hlt, hgt]

/-- The place of a candidate in the ranking: by value, then by element index. -/
noncomputable def rankPlace (t : Nat) (mn : Bool) (c : Nat × Nat) : WithTop EReal ×ₗ Nat := toLex (rankKey t mn c.2, c.1)

theorem rankPlace_lt_iff (t : Nat) (mn : Bool) (c d : Nat × Nat) : rankPlace t mn c < rankPlace t mn d ↔
    ranksBefore t mn c.2 d.2 = true ∨ (ranksBefore t mn d.2 c.2 = false ∧ c.1 < d.1) := by
  rw [rankPlace, rankPlace, Prod.Lex.toLex_lt_toLex', ← Bool.not_eq_true, ranksBefore_iff, ranksBefore_iff, not_lt, le_iff_lt_or_eq]
  grind

/-! The ranking is an insertion sort. -/

theorem rankIns_perm (t : Nat) (mn : Bool) (c : Nat × Nat) (l : List (Nat × Nat)) : (rankIns t mn c l).Perm (c :: l) := by
  induction l with
  | nil => rfl
  | cons d ds ih =>
    rw [rankIns]
    split
    · rfl
    · exact (ih.cons d).trans (.swap c d ds)

/-- A candidate of a higher index than all before it finds its place among them. -/
theorem rankIns_pairwise (t : Nat) (mn : Bool) {c : Nat × Nat} {l : List (Nat × Nat)}
    (hl : l.Pairwise (fun x y => rankPlace t mn x < rankPlace t mn y)) (hc : ∀ d ∈ l, d.1 < c.1) :
    (rankIns t mn c l).Pairwise (fun x y => rankPlace t mn x < rankPlace t mn y) := by
  induction l with
  | nil => exact List.pairwise_singleton ..
  | cons d ds ih =>
    obtain ⟨hd, hds⟩ := List.pairwise_cons.1 hl
    rw [rankIns]
    split
    next hb =>
      have hcd : rankPlace t mn c < rankPlace t mn d := (rankPlace_lt_iff ..).2 (.inl hb)
      exact List.pairwise_cons.2 ⟨List.forall_mem_cons.2 ⟨hcd, fun x hx => hcd.trans (hd x hx)⟩, hl⟩
    next hb =>
      have hdc : rankPlace t mn d < rankPlace t mn c := (rankPlace_lt_iff ..).2 (.inr ⟨by simpa using hb, hc d List.mem_cons_self⟩)
      refine List.pairwise_cons.2 ⟨fun x hx => ?_, ih hds fun x hx => hc x (List.mem_cons_of_mem d hx)⟩
      obtain rfl | hx := List.mem_cons.1 ((rankIns_perm t mn c ds).mem_iff.1 hx)
      · exact hdc
      · exact hd x hx

theorem rank_concat (t : Nat) (mn : Bool) (cs : List (Nat × Nat)) (c : Nat × Nat) :
    rank t mn (cs ++ [c]) = rankIns t mn c (rank t mn cs) := by
  simp [rank]

theorem rank_perm (t : Nat) (mn : Bool) (cs : List (Nat × Nat)) : (rank t mn cs).Perm cs := by
  induction cs using List.reverseRecOn with
  | nil => rfl
  | append_singleton cs c ih =>
    rw [rank_concat]
    exact ((rankIns_perm t mn c _).trans (ih.cons c)).trans (List.perm_append_singleton c cs).symm

/-- Candidates given in element order come out in the order of the ranking. -/
theorem rank_pairwise (t : Nat) (mn : Bool) {cs : List (Nat × Nat)} (hcs : cs.Pairwise (fun x y => x.1 < y.1)) :
    (rank t mn cs).Pairwise (fun x y => rankPlace t mn x < rankPlace t mn y) := by
  induction cs using List.reverseRecOn with
  | nil => exact List.Pairwise.nil
  | append_singleton cs c ih =>
    obtain ⟨hinit, -, hlast⟩ := List.pairwise_append.1 hcs
    rw [rank_concat]
    exact rankIns_pairwise t mn (ih hinit) fun d hd => hlast d ((rank_perm t mn cs).mem_iff.1 hd) c List.mem_cons_self

/-! The candidates: the elements of the served lanes, in ascending order. -/

theorem lanesOf_pairwise (n : Nat) (m : LaneBits) : (lanesOf n m).Pairwise (· < ·) := List.pairwise_lt_range.filter _

/-- The elements of given lanes with their indexes (R135, R166). -/
def State.elementsOf (s : State) (ls : List Nat) (t a : Nat) : List (Nat × Nat) :=
  ls.flatMap (fun l => (List.range (64 / tyWidth t)).map (fun k =>
    (64 / tyWidth t * l + k, teamElem s (s.readCyc l) t a (64 / tyWidth t * l + k))))

theorem State.candidates_eq (s : State) (g : BitVec 4) (t a : Nat) : s.candidates g t a = s.elementsOf (s.lanes g) t a := rfl

theorem State.elementsOf_pairwise (s : State) {ls : List Nat} (hls : ls.Pairwise (· < ·)) (t a : Nat) :
    (s.elementsOf ls t a).Pairwise (fun x y => x.1 < y.1) := by
  rw [State.elementsOf, List.pairwise_flatMap]
  refine ⟨fun l _ => ?_, hls.imp fun {l m} hlm x hx y hy => ?_⟩
  · rw [List.pairwise_map]
    exact List.pairwise_lt_range.imp fun h => Nat.add_lt_add_left h _
  · obtain ⟨j, hj, rfl⟩ := List.mem_map.1 hx
    obtain ⟨k, -, rfl⟩ := List.mem_map.1 hy
    have := Nat.mul_le_mul_left (64 / tyWidth t) hlm
    rw [Nat.mul_succ] at this
    rw [List.mem_range] at hj
    dsimp only
    omega

/-! Sub-elements of packed words (R41). -/

theorem pack_lt (w : Nat) (xs : List Nat) : pack w xs < 2 ^ (w * xs.length) := by
  induction xs with
  | nil => simp [pack]
  | cons x xs ih =>
    have hx : x % 2 ^ w < 2 ^ w := Nat.mod_lt _ (by positivity)
    calc pack w (x :: xs) = x % 2 ^ w + 2 ^ w * pack w xs := rfl
      _ < 2 ^ w * (pack w xs + 1) := by rw [Nat.mul_succ]; omega
      _ ≤ 2 ^ w * 2 ^ (w * xs.length) := Nat.mul_le_mul_left _ ih
      _ = 2 ^ (w * (x :: xs).length) := by rw [← pow_add, List.length_cons]; ring_nf

theorem sub_pack (w : Nat) {xs : List Nat} {k : Nat} (hk : k < xs.length) : sub w k (pack w xs) = xs.getD k 0 % 2 ^ w := by
  induction xs generalizing k with
  | nil => simp at hk
  | cons x xs ih =>
    have hpack : pack w (x :: xs) = x % 2 ^ w + 2 ^ w * pack w xs := rfl
    cases k with
    | zero => simp [sub, hpack]
    | succ k =>
      have hdiv : pack w (x :: xs) / 2 ^ w = pack w xs := by
        rw [hpack, Nat.add_mul_div_left _ _ (by positivity), Nat.div_eq_of_lt (Nat.mod_lt _ (by positivity)), Nat.zero_add]
      rw [sub, Nat.mul_succ, Nat.add_comm, pow_add, ← Nat.div_div_eq_div_mul, hdiv]
      exact ih (by simpa using hk)

/-- Sub-elements packed into a register word read back. -/
theorem sub_word_pack {w : Nat} {xs : List Nat} (hw : w * xs.length ≤ 64) {k : Nat} (hk : k < xs.length) :
    sub w k (BitVec.ofNat 64 (pack w xs)).toNat = xs.getD k 0 % 2 ^ w := by
  rw [BitVec.toNat_ofNat, Nat.mod_eq_of_lt ((pack_lt w xs).trans_le (Nat.pow_le_pow_right (by omega) hw)), sub_pack w hk]

@[simp] theorem sub_mod (w k x : Nat) : sub w k x % 2 ^ w = sub w k x := Nat.mod_mod ..

/-! Vector writes as later reads see them. -/

theorem putCells_cons (seq r : Nat) (t : Team) (fly : Option Nat) (e : Nat × VCell) (cells : List (Nat × VCell)) (v : Tbl VCell)
    (he : t.varPending fly (.v r) e.1 = false) :
    putCells seq r t fly (e :: cells) v = putCells seq r t fly cells (Tbl.set {} v (1024 * r + e.1) e.2) := by
  simp [putCells, he, mergeNew]

/-- Cells written where nothing is pending: every place outside them stays. -/
theorem get_putCells_of_notMem {seq r : Nat} {t : Team} {fly : Option Nat} {cells : List (Nat × VCell)} (v : Tbl VCell)
    (hs : ∀ e ∈ cells, t.varPending fly (.v r) e.1 = false) {j : Nat} (hj : ∀ e ∈ cells, j ≠ 1024 * r + e.1) :
    Tbl.get {} (putCells seq r t fly cells v) j = Tbl.get {} v j := by
  induction cells generalizing v with
  | nil => rfl
  | cons e cells ih =>
    rw [List.forall_mem_cons] at hs hj
    rw [putCells_cons _ _ _ _ _ _ _ hs.1, ih _ hs.2 hj.2, Tbl.get_set_ne _ _ _ hj.1]

/-- Cells written where nothing is pending, one per lane, hold what was written. -/
theorem get_putCells_of_mem {seq r : Nat} {t : Team} {fly : Option Nat} {cells : List (Nat × VCell)} (v : Tbl VCell)
    (hs : ∀ e ∈ cells, t.varPending fly (.v r) e.1 = false) (hn : (cells.map Prod.fst).Nodup) {e : Nat × VCell} (he : e ∈ cells) :
    Tbl.get {} (putCells seq r t fly cells v) (1024 * r + e.1) = e.2 := by
  induction cells generalizing v with
  | nil => cases he
  | cons c cells ih =>
    rw [List.forall_mem_cons] at hs
    rw [List.map_cons, List.nodup_cons] at hn
    rw [putCells_cons _ _ _ _ _ _ _ hs.1]
    obtain rfl | he := List.mem_cons.1 he
    · rw [get_putCells_of_notMem _ hs.2, Tbl.get_set_same]
      intro c hc heq
      exact hn.1 (List.mem_map.2 ⟨c, hc, by omega⟩)
    · exact ih _ hs.2 hn.2 he

/-- A vector write (R41, R91): where no variable-latency write is pending the cells written, one per lane, hold what was written, and
every other place stays. -/
theorem State.wv_spec {s : State} (hg : s.isGath = false) (r : Nat) {cells : List (Nat × VCell)} (hn : (cells.map Prod.fst).Nodup)
    (hs : ∀ e ∈ cells, s.tm.varPending s.tm.due.2 (.v r) e.1 = false) :
    onlyTeam s (s.wv r cells) ∧ ∃ V haz, (s.wv r cells).tm = { s.tm with regs := { s.tm.regs with v := V }, haz := haz } ∧
      (∀ e ∈ cells, Tbl.get {} V (1024 * r + e.1) = e.2) ∧
      ∀ j, (∀ e ∈ cells, j ≠ 1024 * r + e.1) → Tbl.get {} V j = Tbl.get {} s.tm.regs.v j := by
  obtain ⟨k, i, hc⟩ := State.cur_of_isGath hg
  unfold State.wv
  rw [hc]
  dsimp only
  split
  next he =>
    rw [List.isEmpty_iff] at he
    subst he
    exact ⟨onlyTeam_refl s, s.tm.regs.v, s.tm.haz, rfl, by simp, fun _ _ => rfl⟩
  next =>
    simp only [State.tm_onTm]
    exact ⟨onlyTeam_onTm s _, _, _, rfl, fun e he => get_putCells_of_mem _ hs hn he, fun j hj => get_putCells_of_notMem _ hs hj⟩

/-! The issue of an instruction that writes registers alone, of any latency class but None. -/

theorem Team.varPending_of_none {t : Team} {r : RegName} {l : Nat} (h : t.varPending none r l = false) (id : Option Nat) :
    t.varPending id r l = false := by
  simp only [Team.varPending, List.any_eq_false, Bool.and_eq_true, bne_iff_ne] at h ⊢
  rintro x hx ⟨⟨hreg, hfly⟩, -⟩
  exact h x hx ⟨⟨hreg, hfly⟩, by simpa [Option.isSome_iff_ne_none] using hfly⟩

/-- The end of the issue of an instruction that is not complete at once moves the path on. -/
theorem Team.closed_incomplete {t : Team} {n : Info} {ipc : Word} (h : n.lat ≠ .none_) :
    t.closed n ipc false =
      { t with path := loopBack ipc { t.path with pc := nextPc ipc }, flt := { t.flt with replay := false } } := by
  cases hl : n.lat with
  | none_ => exact absurd hl h
  | fixed => exact Team.closed_fixed hl
  | var => simp [Team.closed, Team.endIssue, hl]

section Writes
variable {i : Instr} {s : State} (h : canIssue i s = true)
include h

theorem State.openIssue_v : (s.openIssue (instrInfo i)).tm.regs.v = s.tm.regs.v := by
  rw [State.openIssue_regs h]; exact Team.signal_v ..

theorem State.openIssue_readCyc (l : Nat) : (s.openIssue (instrInfo i)).readCyc l = s.readCyc l := by
  rw [State.openIssue_eq h]; exact State.readCyc_onTm (by simp [Team.opened]) l

theorem State.openIssue_rvAt (c r l : Nat) : (s.openIssue (instrInfo i)).rvAt c r l = s.rvAt c r l := by
  rw [State.openIssue_eq h]; exact State.rvAt_onTm (by simp [Team.opened]) (by simp [Team.opened]) c r l

theorem State.openIssue_elementsOf (ls : List Nat) (t a : Nat) :
    (s.openIssue (instrInfo i)).elementsOf ls t a = s.elementsOf ls t a := by
  simp only [State.elementsOf, teamElem, State.openIssue_readCyc h, State.openIssue_rvAt h]

/-- What is settled before an issue, the instruction's own write meets settled, whatever its latency (R91). -/
theorem State.openIssue_varPending {r : RegName} {l : Nat} (hs : settled s r l) (id : Option Nat) :
    (s.openIssue (instrInfo i)).tm.varPending id r l = false := by
  rw [State.openIssue_tm h]
  exact Team.varPending_of_none (by simpa [settled, Team.varPending, Team.opened] using hs) id

/-- Sources clean in the lanes served: their poison check passes. -/
theorem State.openIssue_noPoison {rs : List Nat} (hc : cleanIn s i rs = true) :
    (s.openIssue (instrInfo i)).noPoison (s.lanesBy i) (rs.map .v) = .ok () := by
  have hnone : ∀ l ∈ s.lanesBy i, (s.openIssue (instrInfo i)).pzSrc l (rs.map .v) = none := by
    intro l hl
    have hr := List.all_eq_true.1 (List.all_eq_true.1 hc l hl)
    clear hc
    induction rs with
    | nil => rfl
    | cons r rs ih =>
      have hz := hr r List.mem_cons_self
      rw [List.map_cons, State.pzSrc, State.openIssue_rv h, if_neg (by simpa using hz)]
      exact ih fun x hx => hr x (List.mem_cons_of_mem r hx)
  have hfind : (s.lanesBy i).findSome? (fun l => ((s.openIssue (instrInfo i)).pzSrc l (rs.map .v)).map (fun r => (r, l))) = none :=
    List.findSome?_eq_none_iff.2 fun l hl => by rw [hnone l hl]; rfl
  rw [State.noPoison, hfind]

/-- An instruction, complete later, whose body changes registers of the team and the record of results to come, and nothing else, leaves
those registers, goes on in line and is in flight. -/
theorem State.issue_writes_spec {uniform : Bool} {body : Body} {t : State} {regs : TeamRegs} {haz : List Hazard}
    (hl : (instrInfo i).lat ≠ .none_) (hn : branchOpc (instrInfo i).opc = false) (hu : uniform = true → s.servedBy i ≠ 0)
    (hb : body (s.openIssue (instrInfo i)) = .ok t) (ht : onlyTeam (s.openIssue (instrInfo i)) t)
    (htm : t.tm = { (s.openIssue (instrInfo i)).tm with regs := regs, haz := haz }) :
    let u := s.issue i uniform false body
    onlyTeam s u ∧ keepsTeam s u ∧ advances s u ∧ inFlight i 0 s u ∧ u.tm.regs = regs := by
  obtain ⟨-, hst, hpk, hreplay, -, -, -⟩ := (canIssue_iff i s).1 h
  rw [State.openIssue_tm h] at htm
  have hm : t.tm.moves := by simp [Team.moves, htm, Team.opened, hst, hpk]
  obtain ⟨honly, hclosed⟩ := State.issue_spec h hu hb ht hm hn
  rw [Team.closed_incomplete hl, htm] at hclosed
  refine ⟨honly, ?_, ?_, ?_, ?_⟩
  · rw [keepsTeam, hclosed, Team.opened, Team.signal_cases, ← hreplay]
  · simp [advances, hclosed, Team.opened]
  · simp [inFlight, entryOf, hclosed, Team.opened]
  · rw [hclosed]

end Writes

/-! The writes of TOPK and TOPKX (R166). -/

/-- The cell that output positions `n * m` and up leave in lane `l`. -/
def State.rankedCell (s : State) (d w : Nat) (vals : List Nat) (m l : Nat) : VCell :=
  { val := BitVec.ofNat 64 (pack w ((List.range (64 / w)).map (fun k =>
      ((vals.drop (64 / w * m)).take (64 / w)).getD k (sub w k (s.rv d l).val.toNat)))) }

/-- The cells that values put into output positions write. -/
def State.rankedCells (s : State) (d w : Nat) (ls vals : List Nat) : List (Nat × VCell) :=
  ((ls.zip (List.range ls.length)).filter (fun p => 64 / w * p.2 < vals.length)).map (fun p => (p.1, s.rankedCell d w vals p.2 p.1))

theorem State.putRanked_eq (s : State) (d w : Nat) (ls vals : List Nat) :
    s.putRanked d w ls vals = s.wv d (s.rankedCells d w ls vals) := rfl

theorem State.mem_rankedCells {s : State} {d w : Nat} {ls vals : List Nat} {e : Nat × VCell} :
    e ∈ s.rankedCells d w ls vals ↔
      ∃ m, m < ls.length ∧ 64 / w * m < vals.length ∧ e = (ls.getD m 0, s.rankedCell d w vals m (ls.getD m 0)) := by
  rw [State.rankedCells, List.range_eq_range', ← List.zipIdx_eq_zip_range']
  simp only [List.mem_map, List.mem_filter, Prod.exists, List.mem_zipIdx_iff_getElem?, decide_eq_true_eq]
  constructor
  · rintro ⟨l, m, ⟨hl, hv⟩, rfl⟩
    obtain ⟨hm, rfl⟩ := List.getElem?_eq_some_iff.1 hl
    exact ⟨m, hm, hv, by rw [List.getD_eq_getElem _ _ hm]⟩
  · rintro ⟨m, hm, hv, rfl⟩
    exact ⟨_, m, ⟨by rw [List.getD_eq_getElem _ _ hm, List.getElem?_eq_getElem hm], hv⟩, rfl⟩

theorem State.nodup_rankedCells (s : State) (d w : Nat) {ls : List Nat} (hls : ls.Nodup) (vals : List Nat) :
    ((s.rankedCells d w ls vals).map Prod.fst).Nodup := by
  rw [State.rankedCells, List.map_map]
  refine List.Nodup.sublist ((List.filter_sublist ..).map Prod.fst) ?_
  rwa [List.map_fst_zip (by simp)]

/-- A lane written holds the values of its positions, and behind the last value what it held. -/
theorem State.sub_rankedCell (s : State) (d w : Nat) (vals : List Nat) (m l : Nat) {j : Nat} (hj : j < 64 / w) :
    sub w j (s.rankedCell d w vals m l).val.toNat =
      if 64 / w * m + j < vals.length then vals.getD (64 / w * m + j) 0 % 2 ^ w else sub w j (s.rv d l).val.toNat := by
  rw [State.rankedCell, sub_word_pack (by simpa using Nat.mul_div_le 64 w) (by simpa using hj),
    List.getD_eq_getElem _ _ (by simpa using hj), List.getElem_map, List.getElem_range]
  split
  next hv =>
    rw [List.getD_eq_getElem _ _ (by rw [List.length_take, List.length_drop]; omega), List.getElem_take, List.getElem_drop,
      List.getD_eq_getElem _ _ hv]
  next hv => rw [List.getD_eq_default _ _ (by rw [List.length_take, List.length_drop]; omega), sub_mod]

/-- The output positions after the writes: a lane with a position to write has its cell, every other place stays. -/
theorem State.putRanked_spec {s : State} (hg : s.isGath = false) (d w : Nat) {ls : List Nat} (hls : ls.Nodup) (vals : List Nat)
    (hlt : ∀ l ∈ ls, l < 1024) (hs : ∀ l ∈ ls, s.tm.varPending s.tm.due.2 (.v d) l = false) :
    onlyTeam s (s.putRanked d w ls vals) ∧
      ∃ V haz, (s.putRanked d w ls vals).tm = { s.tm with regs := { s.tm.regs with v := V }, haz := haz } ∧
        (∀ m, m < ls.length → 64 / w * m < vals.length →
          Tbl.get {} V (1024 * d + ls.getD m 0) = s.rankedCell d w vals m (ls.getD m 0)) ∧
        ∀ q l, l < 1024 → ¬ (q = d ∧ ∃ m, m < ls.length ∧ ls.getD m 0 = l ∧ 64 / w * m < vals.length) →
          Tbl.get {} V (1024 * q + l) = Tbl.get {} s.tm.regs.v (1024 * q + l) := by
  have hlane : ∀ e ∈ s.rankedCells d w ls vals, e.1 ∈ ls := by
    intro e he
    obtain ⟨m, hm, -, rfl⟩ := State.mem_rankedCells.1 he
    rw [List.getD_eq_getElem _ _ hm]
    exact List.getElem_mem hm
  obtain ⟨honly, V, haz, htm, hin, hout⟩ := State.wv_spec hg d (s.nodup_rankedCells d w hls vals) fun e he => hs _ (hlane e he)
  refine ⟨honly, V, haz, htm, fun m hm hv => hin _ (State.mem_rankedCells.2 ⟨m, hm, hv, rfl⟩), fun q l hl hno => hout _ ?_⟩
  intro e he heq
  have hlt' := hlt _ (hlane e he)
  obtain ⟨m, hm, hv, rfl⟩ := State.mem_rankedCells.1 he
  exact hno ⟨by omega, m, hm, by omega, hv⟩

/-- What TOPK and TOPKX write of a ranking, at most to `cap` output positions: its first k values, or their indexes. -/
def rankedVals (idx : Bool) (k cap : Nat) (r : List (Nat × Nat)) : List Nat :=
  ((r.take k).take cap).map (fun e => if idx then e.1 else e.2)

@[simp] theorem rankedVals_zero (idx : Bool) (cap : Nat) (r : List (Nat × Nat)) : rankedVals idx 0 cap r = [] := by
  simp [rankedVals]

theorem length_rankedVals (idx : Bool) (k cap : Nat) (r : List (Nat × Nat)) :
    (rankedVals idx k cap r).length = min cap (min k r.length) := by
  simp [rankedVals]

theorem getD_rankedVals (idx : Bool) (k cap : Nat) (r : List (Nat × Nat)) {p : Nat} (hp : p < (rankedVals idx k cap r).length) :
    (rankedVals idx k cap r).getD p 0 = if idx then (r.getD p (0, 0)).1 else (r.getD p (0, 0)).2 := by
  have hr : p < r.length := by rw [length_rankedVals] at hp; omega
  rw [List.getD_eq_getElem _ _ hp, List.getD_eq_getElem _ _ hr]
  simp [rankedVals]

/-- A position of a lane served holds a value exactly if its number is below k and there is a candidate for it. -/
theorem lt_length_rankedVals_iff (idx : Bool) (k : Nat) (r : List (Nat × Nat)) {n len m j : Nat} (hm : m < len) (hj : j < n) :
    n * m + j < (rankedVals idx k (len * n) r).length ↔ n * m + j < min k r.length := by
  have hcap : n * m + j < len * n := calc
    n * m + j < n * (m + 1) := by rw [Nat.mul_succ]; omega
    _ ≤ len * n := by rw [Nat.mul_comm len]; exact Nat.mul_le_mul_left n hm
  rw [length_rankedVals]
  omega

/-- Without a value nothing is written. -/
theorem State.putRanked_nil (s : State) (d w : Nat) (ls : List Nat) : s.putRanked d w ls [] = s := by
  rw [State.putRanked_eq, State.rankedCells]
  unfold State.wv
  cases s.cur <;> simp

theorem tySubs_pos (t : Nat) : 0 < tySubs t := by
  unfold tySubs tyWidth
  split <;> decide

/-! TOPK and TOPKX. -/

/-- TOPKX or TOPK. -/
def topkForm (h : Head) (o : FmtA) (idx : Bool) : Instr := if idx then .topkx h o else .topk h o

section Topk
variable {s : State} {h : Head} {o : FmtA} {idx : Bool}

theorem exec_topkForm : exec (topkForm h o idx) s = .next (s.issue (topkForm h o idx) false false (topkBody h o idx)) := by
  cases idx <;> rfl

theorem lat_topkForm : (instrInfo (topkForm h o idx)).lat = .var := by cases idx <;> rfl

theorem branchOpc_topkForm : branchOpc (instrInfo (topkForm h o idx)).opc = false := by cases idx <;> rfl

theorem State.openIssue_topkLanes (hi : canIssue (topkForm h o idx) s = true) :
    (s.openIssue (instrInfo (topkForm h o idx))).lanes h.guard = s.lanesBy (topkForm h o idx) := by
  cases idx <;> exact State.openIssue_lanes hi

/-- TOPK and TOPKX over clean sources put the first k of the ranking into the output positions; k = 0 writes nothing. -/
theorem topkBody_of_clean (hi : canIssue (topkForm h o idx) s = true) (hc : cleanIn s (topkForm h o idx) [o.a.toNat] = true) :
    let u := s.openIssue (instrInfo (topkForm h o idx))
    let w := if idx then 32 else tyWidth o.ty.toNat
    let ls := s.lanesBy (topkForm h o idx)
    topkBody h o idx u = .ok (u.putRanked o.d.toNat w ls (rankedVals idx (s.rs o.b.toNat).toNat (ls.length * (64 / w))
      (rank o.ty.toNat (o.c == 1) (s.elementsOf ls o.ty.toNat o.a.toNat)))) := by
  intro u w ls
  have hclean : u.noPoison ls [srcA o] = .ok () := State.openIssue_noPoison hi hc
  simp only [topkBody, State.candidates_eq, u, State.openIssue_topkLanes hi, State.openIssue_rs hi, State.openIssue_elementsOf hi]
  split
  next hk =>
    rw [hk, rankedVals_zero, State.putRanked_nil]
    rfl
  next => rw [hclean]; rfl

/-- TOPK and TOPKX over clean sources rank the elements of the served lanes, however many output positions there are for them. -/
theorem ranked_of_clean (hi : canIssue (topkForm h o idx) s = true) (hc : cleanIn s (topkForm h o idx) [o.a.toNat] = true)
    (hs : ∀ l ∈ s.lanesBy (topkForm h o idx), settled s (.v o.d.toNat) l) : ranked s (topkForm h o idx) o idx := by
  unfold ranked
  intro ty ls w n es k
  have hn : 0 < n := by
    cases idx with
    | false => exact tySubs_pos ty
    | true => exact (by decide : 0 < 64 / 32)
  have hsorted : ls.Pairwise (· < ·) := lanesOf_pairwise ..
  set r := rank ty (o.c == 1) es
  set vals := rankedVals idx k (ls.length * n) r
  have hpos (m : Nat) (hm : m < ls.length) : n * m < vals.length ↔ n * m < min k r.length :=
    lt_length_rankedVals_iff idx k r (j := 0) hm hn
  obtain ⟨honly, V, haz, htm, hin, hout⟩ := State.putRanked_spec (State.openIssue_isGath hi) o.d.toNat w
    (hsorted.imp ne_of_lt) vals (fun l hl => lt_of_mem_lanesOf hl) (fun l hl => State.openIssue_varPending hi (hs l hl) _)
  obtain ⟨hteam, hkeeps, hadv, hfly, hregs⟩ := State.issue_writes_spec (uniform := false) hi (by simp [lat_topkForm]) branchOpc_topkForm
    (by simp) (topkBody_of_clean hi hc) honly htm
  refine ⟨_, r, exec_topkForm, hteam, hkeeps, hadv, hfly, ?_, rank_perm .., ?_, fun m hm hk => ?_, fun q l hl hno => ?_⟩
  · rw [hregs, ← State.openIssue_regs hi, ← State.openIssue_v hi]
  · exact (rank_pairwise ty (o.c == 1) (s.elementsOf_pairwise hsorted ty o.a.toNat)).imp fun hlt => (rankPlace_lt_iff ..).1 hlt
  · rw [hregs, hin m hm ((hpos m hm).2 hk)]
    refine ⟨rfl, fun j hj => ?_⟩
    rw [State.sub_rankedCell _ _ _ _ _ _ hj, State.openIssue_rv hi]
    by_cases hv : n * m + j < vals.length
    · rw [if_pos hv, if_pos ((lt_length_rankedVals_iff idx k r hm hj).1 hv), getD_rankedVals _ _ _ _ hv]
    · rw [if_neg hv, if_neg (mt (lt_length_rankedVals_iff idx k r hm hj).2 hv)]
  · rw [hregs, hout q l hl, State.openIssue_v hi]
    rintro ⟨hq, m, hm, hl', hv⟩
    exact hno ⟨hq, m, hm, hl', (hpos m hm).1 hv⟩

end Topk

/-- Settles O34: the ranking holds over clean sources alone; neither a clean destination nor enough output positions are needed. -/
theorem topkRanksElements : Obligations.TopkRanksElements := by
  intro s h o idx i hi hc hs _
  refine ranked_of_clean hi (List.all_eq_true.2 fun l hl => ?_) hs
  have hl' := List.all_eq_true.1 (List.all_eq_true.1 hc l hl) o.a.toNat List.mem_cons_self
  simpa using hl'

end Sys2Proof.Machine
